-- ==== Sys2Proof/Word.lean ====
section
/-! DEFINITION. The word types of the CORE and nothing else (spec/00_scope.md R10, R11, R16). -/

namespace Sys2Proof

/-- A byte: 8 bits, `u8` (R10). -/
abbrev Byte := BitVec 8

/-- A 16-bit unsigned quantity: the frame's `inst`ance and its CRC (R10, R70). -/
abbrev U16 := BitVec 16

/-- A binary32 pattern, moved unchanged by the codec (R16). -/
abbrev F32 := BitVec 32

/-- A binary64 pattern: the result type of the derived-field functions (R146). -/
abbrev F64 := BitVec 64

end Sys2Proof
end

