-- ==== Sys2Proof/Config.lean ====
section
/-! DEFINITION. What an implementation of the CORE fixes, and the values the spec leaves open
(spec/00_scope.md R6, R7, R8; spec/92_eei_decisions.md, "Open parameters in one place").
A parameter with a default in R7 is a plain constant here; a parameter with none is opaque, so
that no proof can see its value. -/

namespace Sys2Proof

/-- The role of one telemetry entry of StatusData (R84). -/
inductive Role
  /-- an angular velocity in rad/s, which gets a derived RPM field -/
  | angVel
  /-- a PWM fraction, which gets a derived percentage and a derived voltage -/
  | pwm
  /-- an entry with no derived field -/
  | plain
  deriving DecidableEq, Repr

/-- The twelve message types (R75). -/
inductive MsgType
  | assertMessage | debugMessage | captureData | drivingCommand | captureCommand | statusData
  | modes | robotCommand | wave | pidParams | request | taskTimingResult
  deriving DecidableEq, Repr

/-- Every message type once, in the order of R75. -/
def MsgType.all : List MsgType :=
  [.assertMessage, .debugMessage, .captureData, .drivingCommand, .captureCommand, .statusData,
   .modes, .robotCommand, .wave, .pidParams, .request, .taskTimingResult]

/-- An id table `ID_TABLE`: the id of each type (R7, R75). -/
abbrev IdTable := MsgType → Byte

/-- The type an id names in a table; none for an id no type has (R76). -/
def IdTable.typeOf (tab : IdTable) (t : Byte) : Option MsgType :=
  MsgType.all.find? fun ty => tab ty == t

/-- The canonical id table (R75), the default of R7 (D3). -/
def MsgType.id : IdTable
  | .assertMessage => 0
  | .debugMessage => 1
  | .captureData => 2
  | .drivingCommand => 3
  | .captureCommand => 4
  | .statusData => 5
  | .modes => 14
  | .robotCommand => 15
  | .wave => 17
  | .pidParams => 18
  | .request => 19
  | .taskTimingResult => 20

/-- The type an id names in the canonical table; none for the reserved ids (R75, R76). -/
def MsgType.ofId (t : Byte) : Option MsgType := IdTable.typeOf MsgType.id t

/-- The numerics record `NUM` of R146: five total functions of their operands. -/
structure Num where
  /-- radians to degrees -/
  deg : F32 → F64
  /-- rad/s to revolutions per minute -/
  rpm : F32 → F64
  /-- PWM fraction to percentage -/
  pct : F32 → F64
  /-- battery voltage times PWM fraction -/
  volt : F32 → F32 → F64
  /-- timer ticks to microseconds; no decoder of the spec calls it (R157). R146 gives its operand no
  type: a natural number, of any width, is this model's choice (log entry 18) -/
  ticksUs : Nat → F64

/-- The configuration record `cfg` (R7, R32): a parameter of the step functions, fixed for a whole
run, not state. -/
structure Cfg where
  /-- `CRC_POLY` -/
  crcPoly : BitVec 16
  /-- `CRC_REFLECT` -/
  crcReflect : Bool
  /-- `CRC_XOROUT` -/
  crcXorout : BitVec 16
  /-- `ID_TABLE` -/
  idTable : IdTable
  /-- `STATE_W`: the width of the parser's `state` register -/
  stateW : Nat
  /-- `CNT_W`: the width of a statistics counter -/
  cntW : Nat
  /-- `STATUS_TELEM` -/
  statusTelem : List (String × Role)
  /-- `WAVE_SIZE` -/
  waveSize : Nat
  /-- `TTR_SIZE` -/
  ttrSize : Nat
  /-- `TIMER_HZ`: read by the default `NUM.ticks_us` only, which no decoder calls (R157, D22) -/
  timerHz : ℝ
  /-- `NUM` -/
  num : Num

/-- The constraints of R7 and R8 on the parameters, and D3's on the id table: no two types share an
id. -/
structure Cfg.Valid (c : Cfg) : Prop where
  poly : c.crcPoly.getLsbD 0 = true
  ids : Function.Injective c.idTable
  stateW : 8 ≤ 2 ^ c.stateW
  cntW : 1 ≤ c.cntW
  telem : c.statusTelem.length ≤ 58
  wave : c.waveSize ≤ 255
  ttrLow : 32 ≤ c.ttrSize
  ttrHigh : c.ttrSize ≤ 255
  hz : 0 < c.timerHz

namespace Config

/-- `START_BYTE` (R6). -/
abbrev startByte : Byte := 0xFE

/-- `CRC_INIT` (R6). -/
abbrev crcInit : BitVec 16 := 0xFFFF

/-- `HDR_LEN` (R6). -/
abbrev hdrLen : Nat := 5

/-- `MAX_BODY` (R6). -/
abbrev maxBody : Nat := 255

/-- `CRC_LEN` (R6). -/
abbrev crcLen : Nat := 2

/-- `TEXT_CAP` (R6). -/
abbrev textCap : Nat := 200

/-- `TASK_NAME_CAP` (R6). -/
abbrev taskNameCap : Nat := 32

/-- `BUF_SIZE`, the longest frame (R8). -/
abbrev bufSize : Nat := hdrLen + maxBody + crcLen

/-- `STATE_W`: the default of R7 (D4). -/
abbrev stateWDefault : Nat := 8

/-- `CNT_W`: the default of R7 (D13). -/
abbrev cntWDefault : Nat := 32

/-- `CRC_POLY`: the default of R7 (D2). -/
def crcPolyDefault : BitVec 16 := 0x1021

/-- `CRC_REFLECT`: the default of R7 (D2). -/
def crcReflectDefault : Bool := false

/-- `CRC_XOROUT`: the default of R7 (D2). -/
def crcXoroutDefault : BitVec 16 := 0x0000

/-- FREE VALUE: the telemetry list the device really has; R7 gives no default (log entry 3). -/
opaque statusTelemRaw : List (String × Role)

/-- `STATUS_TELEM`: any list of at most 58 entries (R8). -/
def statusTelem : List (String × Role) := statusTelemRaw.take 58

/-- FREE VALUE: R7 gives `WAVE_SIZE` no default (log entry 3). -/
opaque waveSizeRaw : BitVec 8

/-- `WAVE_SIZE`: any value of 0..255 (R8). -/
def waveSize : Nat := waveSizeRaw.toNat

/-- FREE VALUE: R7 gives `TTR_SIZE` no default (log entry 3). -/
opaque ttrSizeRaw : Fin 224

/-- `TTR_SIZE`: any value of 32..255 (R8). -/
def ttrSize : Nat := 32 + ttrSizeRaw.val

/-- FREE VALUE: R7 gives `TIMER_HZ` no default (log entry 3). -/
opaque timerHzRaw : Nat × Nat

/-- `TIMER_HZ` of the configuration the machine runs under: any positive fraction (log entry 3).
`Cfg.timerHz` itself is a positive real, as R7 says. -/
def timerHz : ℚ := ((timerHzRaw.1 + 1 : Nat) : ℚ) / ((timerHzRaw.2 + 1 : Nat) : ℚ)

/-- FREE VALUE: which NaN pattern a binary64 operation gives. R146 says only that a NaN operand
gives a NaN result. A function of the operation (0 widening, 1 product, 2 quotient) and of its
operands' patterns, since each function of `NUM` depends on its operands alone (log entry 4). -/
opaque nanRaw : Nat → F64 → F64 → BitVec 53

end Config

end Sys2Proof
end

