-- ==== Sys2Proof/Syntax.lean ====
section
/-! DEFINITION. The syntax: message records (spec/30_encoding.md R78 to R90), the operands of the
ports, the operations as agents issue them, and `Instr`, one constructor per row of
spec/opcode_table.json (R5, R92). -/

namespace Sys2Proof

/-! ## Message records

An integer field is a mathematical integer, not yet cut to its wire width (R171, D18); the record
a decoder gives holds the unsigned value of the field in it. A `f32` field is its pattern (R16).
A `char[n]` or `raw[n]` field is a byte sequence (R78, D17). -/

/-- AssertMessage, id 0 (R79). -/
structure AssertMessage where
  action : Int
  message : List Byte
  valid : Int
  deriving DecidableEq, Repr

/-- DebugMessage, id 1 (R80). -/
structure DebugMessage where
  message : List Byte
  valid : Int
  deriving DecidableEq, Repr

/-- CaptureData, id 2 (R81). -/
structure CaptureData where
  time : F32
  channel0 : F32
  channel1 : F32
  channel2 : F32
  channel3 : F32
  channel4 : F32
  channel5 : F32
  channel6 : F32
  channel7 : F32
  deriving DecidableEq, Repr

/-- DrivingCommand, id 3 (R82). -/
structure DrivingCommand where
  movementBitmask : Int
  linearVelocity : F32
  angularVelocity : F32
  deriving DecidableEq, Repr

/-- CaptureCommand, id 4 (R83). -/
structure CaptureCommand where
  isStart : Int
  paused : Int
  freq : Int
  desiredSamples : Int
  totalSamples : Int
  deriving DecidableEq, Repr

/-- The derived fields of one telemetry entry (R152): by its role, none, `telem_rpm`, or
`telem_pct` and `telem_volt`. -/
inductive TelemDerived
  | none
  | rpm (v : F64)
  | pctVolt (pct volt : F64)
  deriving DecidableEq, Repr

/-- The derived fields a StatusData decoder adds to the raw ones (R152, D32). -/
structure StatusDerived where
  rollDeg : F64
  pitchDeg : F64
  yawDeg : F64
  telem : List TelemDerived
  deriving DecidableEq, Repr

/-- StatusData, id 5 (R84). `derived` is present in a decoded record; an encoder ignores it (R177). -/
structure StatusData where
  battery : F32
  roll : F32
  pitch : F32
  yaw : F32
  mainMode : Int
  subMode : Int
  state : Int
  pad : Int
  telem : List F32
  derived : Option StatusDerived
  deriving DecidableEq, Repr

/-- Modes, id 14 (R85). -/
structure Modes where
  mainMode : Int
  subMode : Int
  state : Int
  deriving DecidableEq, Repr

/-- RobotCommand, id 15 (R86). -/
structure RobotCommand where
  command : Int
  deriving DecidableEq, Repr

/-- Wave, id 17: uninterpreted bytes (R87). -/
structure Wave where
  raw : List Byte
  deriving DecidableEq, Repr

/-- PidParams, id 18 (R88). -/
structure PidParams where
  kp : F32
  ki : F32
  kd : F32
  integralLo : F32
  integralHi : F32
  lo : F32
  hi : F32
  deriving DecidableEq, Repr

/-- Request, id 19, encode only (R89). -/
structure Request where
  requestedTypeId : Int
  deriving DecidableEq, Repr

/-- TaskTimingResult, id 20 (R90). -/
structure TaskTimingResult where
  taskName : List Byte
  timing : List Byte
  deriving DecidableEq, Repr

/-- `MessageType`, the closed set of twelve variants (R18, R170). -/
inductive Message
  | assertMessage (m : AssertMessage)
  | debugMessage (m : DebugMessage)
  | captureData (m : CaptureData)
  | drivingCommand (m : DrivingCommand)
  | captureCommand (m : CaptureCommand)
  | statusData (m : StatusData)
  | modes (m : Modes)
  | robotCommand (m : RobotCommand)
  | wave (m : Wave)
  | pidParams (m : PidParams)
  | request (m : Request)
  | taskTimingResult (m : TaskTimingResult)
  deriving DecidableEq, Repr

/-- The field an `EncodingError` names (R171 to R183, R190). -/
inductive Field
  | action | message | valid | movementBitmask | isStart | paused | freq | desiredSamples
  | totalSamples | telem | mainMode | subMode | state | pad | command | raw | requestedTypeId
  | taskName | timing
  /-- the `instance` operand of TX.SEND -/
  | inst
  deriving DecidableEq, Repr

/-! ## Operations as agents issue them -/

/-- How far behind the current counters a STAT.READ sees each of the six (R206): the number of
counter changes it misses, 0 for the current value. It is not the reader's to choose: the
environment supplies it with the operation (log entry 8). -/
structure Lag where
  bytesSent : Nat
  msgsSent : Nat
  bytesRcvd : Nat
  msgsRcvd : Nat
  badCrc : Nat
  dropped : Nat
  deriving DecidableEq, Repr

/-- The agent that performs a STAT.READ: which one it is (R206, R240), and the number of the newest
frame whose dispatch it has seen, 0 for none (R60; frames are numbered from 1 as VERIFY finds them
valid). Like the lag, the environment supplies it with the operation (log entry 8). -/
structure Reader where
  agent : Nat
  seen : Nat
  deriving DecidableEq, Repr

/-- The operand lines of the command port, beside the command code (R93): each command reads its
own and no other. -/
structure Args where
  /-- CONNECT: whether the transport could open the device (R201) -/
  openOk : Bool
  /-- TX.SEND: the message (R190) -/
  msg : Message
  /-- TX.SEND: the instance, a mathematical integer (R190) -/
  inst : Int
  /-- STAT.READ: the agent that reads (R206, R240) -/
  reader : Reader
  /-- STAT.READ: the staleness of each value (R206) -/
  lag : Lag
  /-- CRC16: the byte sequence (R110) -/
  bytes : List Byte
  /-- CRC16: how many of the bytes (R110) -/
  length : Nat
  /-- CRC16: the initial value (R110) -/
  initial : BitVec 16
  deriving DecidableEq, Repr

/-- One operation started at a port of the CORE (R5, R9, R92). -/
inductive Op
  /-- the transport delivers the next byte of `rx` (R120): format `FSM` -/
  | rxByte (b : Byte)
  /-- a frame that passed VERIFY reaches the codec: its bytes `F[0 .. 5+N)`, header and body,
  without the CRC that VERIFY has compared (R51, R140): format `FRAME` -/
  | frame (f : List Byte)
  /-- a message record reaches the encode multiplexer under a type id (R170): format `MSG` -/
  | encode (t : Byte) (m : Message)
  /-- a command code and the operand lines at the command port (R93): format `PORT` -/
  | command (code : BitVec 3) (args : Args)
  deriving DecidableEq, Repr

/-! ## Instructions: one constructor per row of spec/opcode_table.json -/

/-- An operation selected by its key, with the operands its rule gives it. -/
inductive Instr
  -- format FSM
  | rxWait
  | rxNoise (b : Byte)
  | rxType (b : Byte)
  | rxInstlo (b : Byte)
  | rxInsthi (b : Byte)
  | rxLen (b : Byte)
  | rxBody (b : Byte)
  | rxCrclo (b : Byte)
  | rxCrchi (b : Byte)
  | rxBadstate (st : Nat) (b : Byte)
  -- format FRAME
  | decAssertMessage (inst : U16) (body : List Byte)
  | decDebugMessage (inst : U16) (body : List Byte)
  | decCaptureData (inst : U16) (body : List Byte)
  | decDrivingCommand (inst : U16) (body : List Byte)
  | decCaptureCommand (inst : U16) (body : List Byte)
  | decStatusData (inst : U16) (body : List Byte)
  | decModes (inst : U16) (body : List Byte)
  | decRobotCommand (inst : U16) (body : List Byte)
  | decWave (inst : U16) (body : List Byte)
  | decPidParams (inst : U16) (body : List Byte)
  | decTaskTimingResult (inst : U16) (body : List Byte)
  | decUnknown (t : Byte) (inst : U16)
  -- format MSG
  | encAssertMessage (m : AssertMessage)
  | encDebugMessage (m : DebugMessage)
  | encCaptureData (m : CaptureData)
  | encDrivingCommand (m : DrivingCommand)
  | encCaptureCommand (m : CaptureCommand)
  | encStatusData (m : StatusData)
  | encModes (m : Modes)
  | encRobotCommand (m : RobotCommand)
  | encWave (m : Wave)
  | encPidParams (m : PidParams)
  | encRequest (m : Request)
  | encTaskTimingResult (m : TaskTimingResult)
  -- format PORT
  | reset
  | connect (openOk : Bool)
  | disconnect
  | txSend (msg : Message) (inst : Int)
  | statRead (reader : Reader) (lag : Lag)
  | crc16 (bytes : List Byte) (length : Nat) (initial : BitVec 16)
  deriving DecidableEq, Repr

end Sys2Proof
end

