-- ==== Sys2Proof/Decode.lean ====
section
/-! DEFINITION. Byte order, the type-id table and layout sizes, the opcode table's keys, the decoder
and, after it, the encoder (spec/30_encoding.md; spec/00_scope.md R12). -/

namespace Sys2Proof

/-! ## Byte order (R12, R53) -/

/-- `le(v, n)`: the `n`-byte little-endian sequence of `v` (R12). -/
def le (v : Nat) : Nat → List Byte
  | 0 => []
  | n + 1 => BitVec.ofNat 8 v :: le (v / 256) n

/-- `unle(bs)`: the unsigned integer a little-endian sequence stands for (R12). -/
def unle : List Byte → Nat
  | [] => 0
  | b :: bs => b.toNat + 256 * unle bs

/-! ## Layouts and types (R75) -/

/-- The "dec" column of R75: whether the decode multiplexer has an entry for the type. -/
def MsgType.hasDec : MsgType → Bool
  | .request => false
  | _ => true

/-- `SIZE`, the fixed layout size of a type's body in bytes (R75). -/
def MsgType.size (cfg : Cfg) : MsgType → Nat
  | .assertMessage => 208
  | .debugMessage => 204
  | .captureData => 36
  | .drivingCommand => 12
  | .captureCommand => 12
  | .statusData => 20 + 4 * cfg.statusTelem.length
  | .modes => 3
  | .robotCommand => 1
  | .wave => cfg.waveSize
  | .pidParams => 28
  | .request => 1
  | .taskTimingResult => cfg.ttrSize

/-- The type of a message's variant (R170). -/
def Message.type : Message → MsgType
  | .assertMessage _ => .assertMessage
  | .debugMessage _ => .debugMessage
  | .captureData _ => .captureData
  | .drivingCommand _ => .drivingCommand
  | .captureCommand _ => .captureCommand
  | .statusData _ => .statusData
  | .modes _ => .modes
  | .robotCommand _ => .robotCommand
  | .wave _ => .wave
  | .pidParams _ => .pidParams
  | .request _ => .request
  | .taskTimingResult _ => .taskTimingResult

/-! ## The opcode table (R92) -/

/-- The four formats of spec/opcode_table.json. -/
inductive Fmt
  | fsm | frame | msg | port
  deriving DecidableEq, Repr

/-- One row of spec/opcode_table.json; a key narrower than 16 bits is zero extended. -/
structure Row where
  mnemonic : String
  fmt : Fmt
  pat : BitVec 16
  mask : BitVec 16
  deriving DecidableEq, Repr

/-- The rows of format `FSM`; the key is the parser state's code and the incoming byte. -/
def rowsFsm : List Row :=
  [⟨"RX.WAIT", .fsm, 0x00FE, 0xFFFF⟩, ⟨"RX.NOISE", .fsm, 0x0000, 0xFF00⟩,
   ⟨"RX.TYPE", .fsm, 0x0100, 0xFF00⟩, ⟨"RX.INSTLO", .fsm, 0x0200, 0xFF00⟩,
   ⟨"RX.INSTHI", .fsm, 0x0300, 0xFF00⟩, ⟨"RX.LEN", .fsm, 0x0400, 0xFF00⟩,
   ⟨"RX.BODY", .fsm, 0x0500, 0xFF00⟩, ⟨"RX.CRCLO", .fsm, 0x0600, 0xFF00⟩,
   ⟨"RX.CRCHI", .fsm, 0x0700, 0xFF00⟩, ⟨"RX.BADSTATE", .fsm, 0x0000, 0x0000⟩]

/-- The rows of format `FRAME`; the key is the frame's start byte and its type id. -/
def rowsFrame : List Row :=
  [⟨"DEC.AssertMessage", .frame, 0xFE00, 0xFFFF⟩, ⟨"DEC.DebugMessage", .frame, 0xFE01, 0xFFFF⟩,
   ⟨"DEC.CaptureData", .frame, 0xFE02, 0xFFFF⟩, ⟨"DEC.DrivingCommand", .frame, 0xFE03, 0xFFFF⟩,
   ⟨"DEC.CaptureCommand", .frame, 0xFE04, 0xFFFF⟩, ⟨"DEC.StatusData", .frame, 0xFE05, 0xFFFF⟩,
   ⟨"DEC.Modes", .frame, 0xFE0E, 0xFFFF⟩, ⟨"DEC.RobotCommand", .frame, 0xFE0F, 0xFFFF⟩,
   ⟨"DEC.Wave", .frame, 0xFE11, 0xFFFF⟩, ⟨"DEC.PidParams", .frame, 0xFE12, 0xFFFF⟩,
   ⟨"DEC.TaskTimingResult", .frame, 0xFE14, 0xFFFF⟩, ⟨"DEC.UNKNOWN", .frame, 0xFE00, 0xFF00⟩]

/-- The rows of format `MSG`; the key is the type id of the message's variant. -/
def rowsMsg : List Row :=
  [⟨"ENC.AssertMessage", .msg, 0x00, 0xFF⟩, ⟨"ENC.DebugMessage", .msg, 0x01, 0xFF⟩,
   ⟨"ENC.CaptureData", .msg, 0x02, 0xFF⟩, ⟨"ENC.DrivingCommand", .msg, 0x03, 0xFF⟩,
   ⟨"ENC.CaptureCommand", .msg, 0x04, 0xFF⟩, ⟨"ENC.StatusData", .msg, 0x05, 0xFF⟩,
   ⟨"ENC.Modes", .msg, 0x0E, 0xFF⟩, ⟨"ENC.RobotCommand", .msg, 0x0F, 0xFF⟩,
   ⟨"ENC.Wave", .msg, 0x11, 0xFF⟩, ⟨"ENC.PidParams", .msg, 0x12, 0xFF⟩,
   ⟨"ENC.Request", .msg, 0x13, 0xFF⟩, ⟨"ENC.TaskTimingResult", .msg, 0x14, 0xFF⟩]

/-- The rows of format `PORT`; the key is the command code. -/
def rowsPort : List Row :=
  [⟨"RESET", .port, 0, 7⟩, ⟨"CONNECT", .port, 1, 7⟩, ⟨"DISCONNECT", .port, 2, 7⟩,
   ⟨"TX.SEND", .port, 3, 7⟩, ⟨"STAT.READ", .port, 4, 7⟩, ⟨"CRC16", .port, 5, 7⟩]

/-- spec/opcode_table.json's 40 rows. -/
def opcodeTable : List Row := rowsFsm ++ rowsFrame ++ rowsMsg ++ rowsPort

/-- Whether a row's fixed bits are those of a key. -/
def Row.covers (r : Row) (fmt : Fmt) (key : BitVec 16) : Bool :=
  r.fmt == fmt && (key &&& r.mask == r.pat)

/-- Of two rows that match, the one with more bits fixed wins (R92). -/
def betterRow (best : Option Row) (r : Row) : Option Row :=
  match best with
  | none => some r
  | some q => if q.mask.toNat < r.mask.toNat then some r else some q

/-- The row a key selects (R92). -/
def selectRow (fmt : Fmt) (key : BitVec 16) : Option Row :=
  (opcodeTable.filter (·.covers fmt key)).foldl betterRow none

/-! ## The decoder -/

/-- What the decoder reads: the parser's state code, of which format `FSM` makes the upper half of
its key, and the operation at its port. -/
structure OpWord where
  st : Nat
  op : Op
  deriving DecidableEq, Repr

/-- The format an operation's key has (R92). -/
def OpWord.fmt (w : OpWord) : Fmt :=
  match w.op with
  | .rxByte _ => .fsm
  | .frame _ => .frame
  | .encode _ _ => .msg
  | .command _ _ => .port

/-- The key an operation is selected by; in format `FSM` bits 15:8 are `state[7:0]` (R92). -/
def OpWord.key (w : OpWord) : BitVec 16 :=
  match w.op with
  | .rxByte b => BitVec.ofNat 8 w.st ++ b
  | .frame f => f.headD 0 ++ f.tail.headD 0
  | .encode t _ => BitVec.setWidth 16 t
  | .command c _ => BitVec.setWidth 16 c

/-- Why the decoder rejects an operation. -/
inductive DecodeError
  /-- a frame with fewer than the five header bytes (R70) -/
  | frameTooShort
  /-- a frame whose first byte is not the start marker (R70, R92: no `FRAME` row has another) -/
  | badStartByte
  /-- a frame whose body is not as long as its `body_len` byte says (R70) -/
  | bodyLengthMismatch
  /-- a type id with no `ENC` row at the encode multiplexer (R75) -/
  | unassignedTypeId
  /-- a message record of another variant than the type id selects (R170: every encoder takes a
  record of its own variant) -/
  | variantMismatch
  /-- command codes 6 and 7 (R93) -/
  | unassignedCommand
  deriving DecidableEq, Repr

/-- The `FSM` rows (R92, R121 to R130). -/
def decodeFsm (st : Nat) (b : Byte) : Instr :=
  match st with
  | 0 => if b = 0xFE then .rxWait else .rxNoise b
  | 1 => .rxType b
  | 2 => .rxInstlo b
  | 3 => .rxInsthi b
  | 4 => .rxLen b
  | 5 => .rxBody b
  | 6 => .rxCrclo b
  | 7 => .rxCrchi b
  | _ => .rxBadstate st b

/-- The `FRAME` rows, by type id; DEC.UNKNOWN for every id without a decoder (R92, R143). -/
def decodeFrameTypeUnder (tab : IdTable) (t : Byte) (inst : U16) (body : List Byte) : Instr :=
  match tab.typeOf t with
  | some .assertMessage => .decAssertMessage inst body
  | some .debugMessage => .decDebugMessage inst body
  | some .captureData => .decCaptureData inst body
  | some .drivingCommand => .decDrivingCommand inst body
  | some .captureCommand => .decCaptureCommand inst body
  | some .statusData => .decStatusData inst body
  | some .modes => .decModes inst body
  | some .robotCommand => .decRobotCommand inst body
  | some .wave => .decWave inst body
  | some .pidParams => .decPidParams inst body
  | some .taskTimingResult => .decTaskTimingResult inst body
  | some .request => .decUnknown t inst
  | none => .decUnknown t inst

/-- The same under the canonical id table, the opcode table's. -/
def decodeFrameType (t : Byte) (inst : U16) (body : List Byte) : Instr :=
  decodeFrameTypeUnder MsgType.id t inst body

/-- A frame's header and body, `F[0 .. 5+N)` (R70): the operands are the instance, low byte first,
and the body (R71, R140). -/
def decodeFrame (tab : IdTable) (f : List Byte) : Except DecodeError Instr :=
  match f with
  | start :: t :: lo :: hi :: n :: body =>
    if start ≠ Config.startByte then .error .badStartByte
    else if body.length ≠ n.toNat then .error .bodyLengthMismatch
    else .ok (decodeFrameTypeUnder tab t (BitVec.ofNat 16 (unle [lo, hi])) body)
  | _ => .error .frameTooShort

/-- The `ENC` instruction of a message's variant (R170). -/
def encodeInstr : Message → Instr
  | .assertMessage m => .encAssertMessage m
  | .debugMessage m => .encDebugMessage m
  | .captureData m => .encCaptureData m
  | .drivingCommand m => .encDrivingCommand m
  | .captureCommand m => .encCaptureCommand m
  | .statusData m => .encStatusData m
  | .modes m => .encModes m
  | .robotCommand m => .encRobotCommand m
  | .wave m => .encWave m
  | .pidParams m => .encPidParams m
  | .request m => .encRequest m
  | .taskTimingResult m => .encTaskTimingResult m

/-- The `MSG` rows (R92, R170). -/
def decodeMsg (tab : IdTable) (t : Byte) (m : Message) : Except DecodeError Instr :=
  match tab.typeOf t with
  | none => .error .unassignedTypeId
  | some ty => if ty = m.type then .ok (encodeInstr m) else .error .variantMismatch

/-- The `PORT` rows (R93). -/
def decodePort (code : BitVec 3) (a : Args) : Except DecodeError Instr :=
  match code.toNat with
  | 0 => .ok .reset
  | 1 => .ok (.connect a.openOk)
  | 2 => .ok .disconnect
  | 3 => .ok (.txSend a.msg a.inst)
  | 4 => .ok (.statRead a.reader a.lag)
  | 5 => .ok (.crc16 a.bytes a.length a.initial)
  | _ => .error .unassignedCommand

/-- The decoder under an id table (R7, D3): the instruction an operation selects, or why it selects
none. -/
def decodeUnder (tab : IdTable) (w : OpWord) : Except DecodeError Instr :=
  match w.op with
  | .rxByte b => .ok (decodeFsm w.st b)
  | .frame f => decodeFrame tab f
  | .encode t m => decodeMsg tab t m
  | .command c a => decodePort c a

/-- The decoder of the opcode table, which is for the canonical id table (D3). -/
def decode (w : OpWord) : Except DecodeError Instr := decodeUnder MsgType.id w

/-! ## The encoder -/

/-- Operand lines that carry zeros. -/
def Args.zero : Args :=
  { openOk := false, msg := .assertMessage ⟨0, [], 0⟩, inst := 0, reader := ⟨0, 0⟩,
    lag := ⟨0, 0, 0, 0, 0, 0⟩, bytes := [], length := 0, initial := 0 }

/-- Header and body of a frame, `F[0 .. 5+N)` (R70): start marker, type id, instance low byte
first, length, body. -/
def frameHead (t : Byte) (inst : U16) (body : List Byte) : List Byte :=
  [Config.startByte, t] ++ le inst.toNat 2 ++ [BitVec.ofNat 8 body.length] ++ body

/-- The word of an `FSM` row. -/
def wordFsm (st : Nat) (b : Byte) : OpWord := ⟨st, .rxByte b⟩

/-- The word of a `FRAME` row. -/
def wordFrame (t : Byte) (inst : U16) (body : List Byte) : OpWord := ⟨0, .frame (frameHead t inst body)⟩

/-- The word of a `MSG` row: the key is the type id of the message's variant. -/
def wordMsg (tab : IdTable) (m : Message) : OpWord := ⟨0, .encode (tab m.type) m⟩

/-- The word of a `PORT` row. -/
def wordPort (code : BitVec 3) (a : Args) : OpWord := ⟨0, .command code a⟩

/-- The encoder under an id table: the word of an instruction. A format other than `FSM` reads no
state code, and its word carries 0 there. -/
def encodeUnder (tab : IdTable) : Instr → OpWord
  | .rxWait => wordFsm 0 0xFE
  | .rxNoise b => wordFsm 0 b
  | .rxType b => wordFsm 1 b
  | .rxInstlo b => wordFsm 2 b
  | .rxInsthi b => wordFsm 3 b
  | .rxLen b => wordFsm 4 b
  | .rxBody b => wordFsm 5 b
  | .rxCrclo b => wordFsm 6 b
  | .rxCrchi b => wordFsm 7 b
  | .rxBadstate st b => wordFsm st b
  | .decAssertMessage i body => wordFrame (tab .assertMessage) i body
  | .decDebugMessage i body => wordFrame (tab .debugMessage) i body
  | .decCaptureData i body => wordFrame (tab .captureData) i body
  | .decDrivingCommand i body => wordFrame (tab .drivingCommand) i body
  | .decCaptureCommand i body => wordFrame (tab .captureCommand) i body
  | .decStatusData i body => wordFrame (tab .statusData) i body
  | .decModes i body => wordFrame (tab .modes) i body
  | .decRobotCommand i body => wordFrame (tab .robotCommand) i body
  | .decWave i body => wordFrame (tab .wave) i body
  | .decPidParams i body => wordFrame (tab .pidParams) i body
  | .decTaskTimingResult i body => wordFrame (tab .taskTimingResult) i body
  | .decUnknown t i => wordFrame t i []
  | .encAssertMessage m => wordMsg tab (.assertMessage m)
  | .encDebugMessage m => wordMsg tab (.debugMessage m)
  | .encCaptureData m => wordMsg tab (.captureData m)
  | .encDrivingCommand m => wordMsg tab (.drivingCommand m)
  | .encCaptureCommand m => wordMsg tab (.captureCommand m)
  | .encStatusData m => wordMsg tab (.statusData m)
  | .encModes m => wordMsg tab (.modes m)
  | .encRobotCommand m => wordMsg tab (.robotCommand m)
  | .encWave m => wordMsg tab (.wave m)
  | .encPidParams m => wordMsg tab (.pidParams m)
  | .encRequest m => wordMsg tab (.request m)
  | .encTaskTimingResult m => wordMsg tab (.taskTimingResult m)
  | .reset => wordPort 0 Args.zero
  | .connect ok => wordPort 1 { Args.zero with openOk := ok }
  | .disconnect => wordPort 2 Args.zero
  | .txSend m i => wordPort 3 { Args.zero with msg := m, inst := i }
  | .statRead r l => wordPort 4 { Args.zero with reader := r, lag := l }
  | .crc16 bs n i => wordPort 5 { Args.zero with bytes := bs, length := n, initial := i }

/-- The encoder of the opcode table. -/
def encode (i : Instr) : OpWord := encodeUnder MsgType.id i

/-- The table's name for an instruction. -/
def Instr.mnemonic : Instr → String
  | .rxWait => "RX.WAIT"
  | .rxNoise _ => "RX.NOISE"
  | .rxType _ => "RX.TYPE"
  | .rxInstlo _ => "RX.INSTLO"
  | .rxInsthi _ => "RX.INSTHI"
  | .rxLen _ => "RX.LEN"
  | .rxBody _ => "RX.BODY"
  | .rxCrclo _ => "RX.CRCLO"
  | .rxCrchi _ => "RX.CRCHI"
  | .rxBadstate _ _ => "RX.BADSTATE"
  | .decAssertMessage _ _ => "DEC.AssertMessage"
  | .decDebugMessage _ _ => "DEC.DebugMessage"
  | .decCaptureData _ _ => "DEC.CaptureData"
  | .decDrivingCommand _ _ => "DEC.DrivingCommand"
  | .decCaptureCommand _ _ => "DEC.CaptureCommand"
  | .decStatusData _ _ => "DEC.StatusData"
  | .decModes _ _ => "DEC.Modes"
  | .decRobotCommand _ _ => "DEC.RobotCommand"
  | .decWave _ _ => "DEC.Wave"
  | .decPidParams _ _ => "DEC.PidParams"
  | .decTaskTimingResult _ _ => "DEC.TaskTimingResult"
  | .decUnknown _ _ => "DEC.UNKNOWN"
  | .encAssertMessage _ => "ENC.AssertMessage"
  | .encDebugMessage _ => "ENC.DebugMessage"
  | .encCaptureData _ => "ENC.CaptureData"
  | .encDrivingCommand _ => "ENC.DrivingCommand"
  | .encCaptureCommand _ => "ENC.CaptureCommand"
  | .encStatusData _ => "ENC.StatusData"
  | .encModes _ => "ENC.Modes"
  | .encRobotCommand _ => "ENC.RobotCommand"
  | .encWave _ => "ENC.Wave"
  | .encPidParams _ => "ENC.PidParams"
  | .encRequest _ => "ENC.Request"
  | .encTaskTimingResult _ => "ENC.TaskTimingResult"
  | .reset => "RESET"
  | .connect _ => "CONNECT"
  | .disconnect => "DISCONNECT"
  | .txSend _ _ => "TX.SEND"
  | .statRead _ _ => "STAT.READ"
  | .crc16 _ _ _ => "CRC16"

/-! ## A table word laid out at its port

spec/opcode_table.json numbers a row's key, and the key says nothing of which format it belongs to.
Sixteen bits are an `FSM` key, or a `FRAME` key where the upper byte is the start marker; eight bits
are a `PORT` code where they are below 6 and a `MSG` type id otherwise; three bits are a `PORT` code
(log entry 6). Operands, which the table gives no bits, are zeros. -/

/-- A message of a type with zeros in every field of its layout. -/
def Message.zero : MsgType → Message
  | .assertMessage => .assertMessage ⟨0, [], 0⟩
  | .debugMessage => .debugMessage ⟨[], 0⟩
  | .captureData => .captureData ⟨0, 0, 0, 0, 0, 0, 0, 0, 0⟩
  | .drivingCommand => .drivingCommand ⟨0, 0, 0⟩
  | .captureCommand => .captureCommand ⟨0, 0, 0, 0, 0⟩
  | .statusData => .statusData ⟨0, 0, 0, 0, 0, 0, 0, 0,
      List.replicate Config.statusTelem.length 0, none⟩
  | .modes => .modes ⟨0, 0, 0⟩
  | .robotCommand => .robotCommand ⟨0⟩
  | .wave => .wave ⟨List.replicate Config.waveSize 0⟩
  | .pidParams => .pidParams ⟨0, 0, 0, 0, 0, 0, 0⟩
  | .request => .request ⟨0⟩
  | .taskTimingResult => .taskTimingResult ⟨[], List.replicate (Config.ttrSize - Config.taskNameCap) 0⟩

/-- The operation of a `MSG` key with zero operands. -/
def zeroEncode (t : Byte) : Op :=
  .encode t (Message.zero ((MsgType.ofId t).getD .assertMessage))

/-- The operation at the port that a table word stands for, and the parser state it is selected in
where the word holds one. -/
def layoutWord (nbits w : Nat) : Option Nat × Op :=
  if nbits ≤ 3 then (none, .command (BitVec.ofNat 3 w) Args.zero)
  else if nbits ≤ 8 then
    if w < 6 then (none, .command (BitVec.ofNat 3 w) Args.zero)
    else (none, zeroEncode (BitVec.ofNat 8 w))
  else if w / 256 % 256 = 0xFE then
    (none, .frame [0xFE, BitVec.ofNat 8 w, 0, 0, 0])
  else (some (w / 256 % 256), .rxByte (BitVec.ofNat 8 w))

/-- The instruction the decoder reads from a table word. -/
def decodeTableWord (nbits w : Nat) : Option Instr :=
  match decode ⟨(layoutWord nbits w).1.getD 0, (layoutWord nbits w).2⟩ with
  | .ok i => some i
  | .error _ => none

end Sys2Proof
end

