-- ==== Sys2Proof/Machine/State.lean ====
section
/-! DEFINITION. The state of the CORE as plain data (spec/10_state.md R20 to R37), the values its
operations return (spec/60_exceptions.md R220), and the reasons a step stops. -/

namespace Sys2Proof.Machine

/-- The frame buffer's memory: address and byte, addresses strictly rising, no byte equal to what an
unlisted address reads as (R50; Ops.lean holds the form and the operations). -/
abbrev Memory := List Host.Cell

/-- The six statistics counters, in the index order of R28: each the count itself, a number of `CNT_W`
bits (R29 (e)). The width is a parameter (R7), so the bound is the invariant `Stats.fits` of
Safety.lean and no part of the type. -/
structure Stats where
  bytesSent : Nat
  msgsSent : Nat
  bytesRcvd : Nat
  msgsRcvd : Nat
  badCrc : Nat
  dropped : Nat
  deriving DecidableEq, Repr

/-- All six counters zero (R29 (b)). -/
def Stats.zero : Stats := ⟨0, 0, 0, 0, 0, 0⟩

/-- The counters at a point of the operation order, and how many frames had been received there
(R60, R206). -/
structure Past where
  stats : Stats
  frames : Nat
  deriving DecidableEq, Repr

/-- What an operation returns to the agent that started it (R14, R220). -/
inductive OpResult
  | done
  | connected
  | closed (was : Bool)
  | stats (v : Stats)
  | sent (f : List Byte)
  | crc (v : BitVec 16)
  | accepted
  | noise
  | dispatched (t : Byte) (inst : U16) (m : Message)
  | ignored
  | notConnected
  | badCrc
  | decodingError (t : Byte) (inst : U16) (have_ need : Nat)
  | unknownType (t : Byte) (inst : U16)
  | stateCorrupt
  | encodingError (field : Field)
  | alreadyConnected
  | connectionFailure
  /-- what ENC returns to TX.SEND: the type id and the body (R170); not in R220's table -/
  | encoded (t : Byte) (body : List Byte)
  deriving DecidableEq, Repr

/-- One entry of the event stream `ev` (R15, R231): a dispatch to the consumer, or the report of a
decode failure, which carries that outcome. -/
inductive Event
  | dispatch (t : Byte) (inst : U16) (m : Message)
  | report (r : OpResult)
  deriving DecidableEq, Repr

/-- Why the machine stops. The spec gives the CORE no fatal error (R226); the one reason here
answers an access that R50 gives no storage. -/
inductive Fault
  /-- Raised by RX.BODY, RX.CRCLO and RX.CRCHI when `cursor` is 262 or more: `buf` has no byte
  there (R50). Unreachable by the rules (R34 (h)). Safe: the model stops. -/
  | bufIndexOutOfRange
  deriving DecidableEq, Repr

/-- Why an operation is given no meaning. -/
inductive Refusal
  /-- Raised by the dispatcher for an instruction without a meaning; no arm does. Safe. -/
  | notModelled (mnemonic : String)
  /-- Raised by the step when the decoder rejects the operation at the port: it is not expressible
  at the CORE's ports (R92, R93, R170). Safe: the model stops. -/
  | undecodable (e : DecodeError)
  /-- Raised by CRC16 when `length > |bytes|`: "the operation is refused" (R110). Safe. -/
  | crcLengthBeyondBytes
  deriving DecidableEq, Repr

/-- The state. The first group is the architectural state of R20; the second the ghost streams of
R33; the third is the model's own: what the ports carry, and the history from which STAT.READ's
admitted values come. -/
structure State where
  /-- the parser's state code, of `STATE_W` bits (R21); the width is a parameter (R7), so the bound is
  part of the invariant of Safety.lean -/
  state : Nat
  /-- the number of bytes of the current frame stored in `buf` (R22) -/
  cursor : BitVec 9
  /-- the expected body length (R23) -/
  len : BitVec 8
  /-- the frame buffer, 262 bytes (R24) -/
  buf : Memory
  /-- the one flag (R27) -/
  connected : Bool
  /-- the six statistics counters (R28) -/
  stats : Stats
  /-- every byte emitted on `tx`, oldest first (R15, R33) -/
  tx : List Byte
  /-- every event emitted on `ev`, oldest first (R15, R33) -/
  ev : List Event
  /-- the outcome of the latest operation, as its agent received it (R14); none before the first -/
  result : Option OpResult
  /-- how many frames VERIFY has found valid, none of them forgotten by a zeroing: each frame has its
  number in this count (R60, log entry 8) -/
  frames : Nat
  /-- the counters before each operation that could change them since the last zeroing, newest
  first: the values R206 lets a STAT.READ return, beside the current ones -/
  hist : List Past
  /-- for each reader that has read since the last zeroing, how long `hist` was at its latest
  STAT.READ (R206: "the same agent's previous STAT.READ") -/
  marks : List (Nat × Nat)
  /-- the operations agents have started and the CORE has not yet performed, in the total order of
  R58; its bytes, in order, are the incoming stream `rx` (R15) -/
  pending : List Op
  deriving DecidableEq, Repr

/-- The machine right after power-on (R37): the parser idle, not connected, counters zero, the ghost
streams empty, nothing buffered and no operation started. -/
def State.reset : State :=
  { state := 0, cursor := 0, len := 0, buf := [], connected := false, stats := Stats.zero,
    tx := [], ev := [], result := none, frames := 0, hist := [], marks := [], pending := [] }

end Sys2Proof.Machine
end

