-- ==== Sys2Proof/Machine/Ops.lean ====
section
/-! DEFINITION. The named operations over the frame buffer, the parser's registers and the streams
(spec/20_memory.md R50 to R56; spec/00_scope.md R13 to R15). -/

namespace Sys2Proof.Machine

/-! ## The frame buffer (R24, R50) -/

/-- What a byte nothing has written reads as. R252 leaves the choice to the model (log entry 1). -/
def Memory.unlisted : Byte := 0

/-- Reading one byte. -/
def Memory.read : Memory → Nat → Byte
  | [], _ => Memory.unlisted
  | (k, v) :: m, a => if k = a then v else Memory.read m a

/-- The entry of a byte at an address: none where the byte is what an unlisted address reads as. -/
def Memory.entry (a : Nat) (b : Byte) (m : Memory) : Memory :=
  if b = Memory.unlisted then m else (a, b) :: m

/-- Writing one byte, keeping the canonical form. -/
def Memory.write : Memory → Nat → Byte → Memory
  | [], a, b => Memory.entry a b []
  | (k, v) :: m, a, b =>
    if a < k then Memory.entry a b ((k, v) :: m)
    else if a = k then Memory.entry a b m
    else (k, v) :: Memory.write m a b

/-- The canonical form from address `lo` on: addresses rising and inside the buffer, no entry equal
to what an unlisted address reads as. -/
def Memory.wfFrom (lo : Nat) : Memory → Bool
  | [] => true
  | (k, v) :: m => lo ≤ k && k < Config.bufSize && v != Memory.unlisted && Memory.wfFrom (k + 1) m

/-- The canonical form. -/
def Memory.wf (m : Memory) : Bool := Memory.wfFrom 0 m

/-- `buf[a .. a+n)` (R13). -/
def Memory.slice (m : Memory) (a n : Nat) : List Byte := (List.range n).map fun i => m.read (a + i)

/-- `MemRead(a, n)`: the little-endian value of `n` bytes (R13, R53). -/
def Memory.readLe (m : Memory) (a n : Nat) : Nat := unle (m.slice a n)

/-! ## Register and stream updates -/

/-- `buf[a] <- b`, `cursor <- c`, `state <- st`: the write of the arms that store at a fixed index. -/
def State.storeAt (s : State) (a : Nat) (b : Byte) (c : BitVec 9) (st : Nat) : State :=
  { s with buf := s.buf.write a b, cursor := c, state := st }

/-- `buf[cursor] <- b; cursor <- cursor + 1`. -/
def State.push (s : State) (b : Byte) : State :=
  { s with buf := s.buf.write s.cursor.toNat b, cursor := s.cursor + 1 }

/-- Whether `buf` has a byte at `cursor` (R50). -/
def State.canPush (s : State) : Bool := s.cursor.toNat < Config.bufSize

/-- `state <- st`. -/
def State.setState (s : State) (st : Nat) : State := { s with state := st }

/-- `len <- b`. -/
def State.setLen (s : State) (b : Byte) : State := { s with len := b }

/-- `state <- 0; cursor <- 0; len <- 0`: the idle parser (R132, R37). `buf` is not touched; its
bytes at and above `cursor`, now all of them, are those no rule reads (R24, R51). -/
def State.idleParser (s : State) : State := { s with state := 0, cursor := 0, len := 0 }

/-- `connected <- c`. -/
def State.setConnected (s : State) (c : Bool) : State := { s with connected := c }

/-- `tx_emit(bs)` (R15). -/
def State.emitTx (s : State) (bs : List Byte) : State := { s with tx := s.tx ++ bs }

/-- `emit e` on `ev` (R15). -/
def State.emitEv (s : State) (e : Event) : State := { s with ev := s.ev ++ [e] }

/-! ## Outcomes: the CORE's exceptions (R5, R14, R220, R234)

The CORE has no trap entry and no trap return: an error outcome saves nothing, switches no mode,
changes no mask and transfers control nowhere (R234), and after any outcome the CORE takes the next
operation (R235). Taking an exception is therefore this one operation: the outcome is handed to the
agent, and everything else is what the operation's rule wrote before it. -/

/-- The operation ends with outcome `r`. -/
def State.finish (s : State) (r : OpResult) : State := { s with result := some r }

/-- The code of an outcome (R220); ENC's value goes to TX.SEND and has none. -/
def OpResult.code : OpResult → Option Nat
  | .done => some 0
  | .connected => some 1
  | .closed _ => some 2
  | .stats _ => some 3
  | .sent _ => some 4
  | .crc _ => some 5
  | .accepted => some 6
  | .noise => some 7
  | .dispatched _ _ _ => some 8
  | .ignored => some 9
  | .notConnected => some 10
  | .badCrc => some 16
  | .decodingError _ _ _ _ => some 17
  | .unknownType _ _ => some 18
  | .stateCorrupt => some 19
  | .encodingError _ => some 20
  | .alreadyConnected => some 21
  | .connectionFailure => some 22
  | .encoded _ _ => none

/-- Codes 16 and above are the CORE's exceptions (R220). -/
def OpResult.isError (r : OpResult) : Bool := r.code.any (16 ≤ ·)

/-! ## The next operation (R58) -/

/-- The operation the CORE performs next and the state without it; none while the CORE is idle. -/
def State.fetch (s : State) : Option (Op × State) :=
  match s.pending with
  | [] => none
  | op :: rest => some (op, { s with pending := rest })

/-- The state in which `op` is the operation performed next. -/
def State.startOp (s : State) (op : Op) : State := { s with pending := op :: s.pending }

end Sys2Proof.Machine
end

