-- ==== Sys2Proof/Machine/Flags.lean ====
section
/-! DEFINITION. The statistics counters: how they move, when they are zeroed, and which values a
STAT.READ may return (spec/00_scope.md R17; spec/10_state.md R28, R29; spec/44_control.md R206). -/

namespace Sys2Proof.Machine

/-- `sat_inc(v, k) = min(v + k, 2^CNT_W - 1)` (R17), with `CNT_W` from the configuration. -/
def satInc (c : Cfg) (v : Nat) (k : Nat) : Nat := min (v + k) (2 ^ c.cntW - 1)

/-- `bytes_rcvd <- sat_inc(bytes_rcvd, 1)` (R120). -/
def State.bumpBytesRcvd (c : Cfg) (s : State) : State :=
  { s with stats := { s.stats with bytesRcvd := satInc c s.stats.bytesRcvd 1 } }

/-- `msgs_rcvd <- sat_inc(msgs_rcvd, 1)` (R131); the frame takes its number. -/
def State.bumpMsgsRcvd (c : Cfg) (s : State) : State :=
  { s with stats := { s.stats with msgsRcvd := satInc c s.stats.msgsRcvd 1 }, frames := s.frames + 1 }

/-- `bad_crc <- sat_inc(bad_crc, 1)` (R131). -/
def State.bumpBadCrc (c : Cfg) (s : State) : State :=
  { s with stats := { s.stats with badCrc := satInc c s.stats.badCrc 1 } }

/-- `dropped <- sat_inc(dropped, 1)` (R140, R143). -/
def State.bumpDropped (c : Cfg) (s : State) : State :=
  { s with stats := { s.stats with dropped := satInc c s.stats.dropped 1 } }

/-- `msgs_sent <- sat_inc(msgs_sent, 1); bytes_sent <- sat_inc(bytes_sent, k)` (R190). -/
def State.bumpSent (c : Cfg) (s : State) (k : Nat) : State :=
  { s with stats := { s.stats with msgsSent := satInc c s.stats.msgsSent 1,
                                   bytesSent := satInc c s.stats.bytesSent k } }

/-- This point of the operation order. -/
def State.now (s : State) : Past := ⟨s.stats, s.frames⟩

/-- The present point joins the history before an operation that may change the counters. -/
def State.record (s : State) : State := { s with hist := s.now :: s.hist }

/-- All six counters zero; the history a STAT.READ may look back on begins anew (R29 (b), R206). -/
def State.zeroStats (s : State) : State :=
  { s with stats := Stats.zero, hist := [], marks := [] }

/-- How long `hist` was at a reader's latest STAT.READ since the last zeroing; 0 where there is
none, so that the window then reaches back to the zeroing (R206). -/
def markOf (agent : Nat) : List (Nat × Nat) → Nat
  | [] => 0
  | (r, n) :: ms => if r = agent then n else markOf agent ms

/-- `agent` has read at this point of the operation order. -/
def State.setMark (s : State) (agent : Nat) : State :=
  { s with marks := (agent, s.hist.length) :: s.marks.filter (·.1 != agent) }

/-- The points of the operation order from `t0` to now, newest first (R206). -/
def State.window (s : State) (agent : Nat) : List Past :=
  (s.now :: s.hist).take (s.hist.length - markOf agent s.marks + 1)

/-- The points of the window whose `msgs_rcvd` a reader may return: those at which every frame whose
dispatch it has seen is counted (R60). -/
def State.windowMsgs (s : State) (reader : Reader) : List Past :=
  (s.window reader.agent).filter fun p => min reader.seen s.frames ≤ p.frames

/-- The counters `lag` points back in a window, but not before its start. -/
def State.pick (s : State) (w : List Past) (lag : Nat) : Stats :=
  (w.getD (min lag (w.length - 1)) s.now).stats

/-- The six values a STAT.READ returns under a lag (R206, R60): each separately a value its counter
held inside the window. Lag 0 throughout gives the current values. -/
def State.statsSeen (s : State) (reader : Reader) (lag : Lag) : Stats :=
  { bytesSent := (s.pick (s.window reader.agent) lag.bytesSent).bytesSent
    msgsSent := (s.pick (s.window reader.agent) lag.msgsSent).msgsSent
    bytesRcvd := (s.pick (s.window reader.agent) lag.bytesRcvd).bytesRcvd
    msgsRcvd := (s.pick (s.windowMsgs reader) lag.msgsRcvd).msgsRcvd
    badCrc := (s.pick (s.window reader.agent) lag.badCrc).badCrc
    dropped := (s.pick (s.window reader.agent) lag.dropped).dropped }

end Sys2Proof.Machine
end

