-- ==== Sys2Proof/Machine/Num.lean ====
section
/-! DEFINITION. Binary32 and binary64 (spec/00_scope.md R16) and the numerics record's default
bodies (spec/42_codec_decode.md R146): binary64, round to nearest even. Every finite operand is
taken as an exact fraction and the result is rounded once. -/

namespace Sys2Proof.Machine

/-- The number a pattern stands for: `(-1)^sign * m * 2^e` where finite. -/
inductive FVal
  | nan
  | inf (sign : Bool)
  | fin (sign : Bool) (m : Nat) (e : Int)
  deriving DecidableEq, Repr

/-- `val(bits)` of a binary32 pattern (R16): sign bit 31, exponent 30:23, fraction 22:0. -/
def val32 (x : F32) : FVal :=
  let sign := x.getLsbD 31
  let ex : Nat := x.toNat / 2 ^ 23 % 2 ^ 8
  let fr : Nat := x.toNat % 2 ^ 23
  if ex = 255 then (if fr = 0 then .inf sign else .nan)
  else if ex = 0 then .fin sign fr (-149)
  else .fin sign (2 ^ 23 + fr) ((ex : Int) - 150)

/-- The value of a binary64 pattern: sign bit 63, exponent 62:52, fraction 51:0. -/
def val64 (x : F64) : FVal :=
  let sign := x.getLsbD 63
  let ex : Nat := x.toNat / 2 ^ 52 % 2 ^ 11
  let fr : Nat := x.toNat % 2 ^ 52
  if ex = 2047 then (if fr = 0 then .inf sign else .nan)
  else if ex = 0 then .fin sign fr (-1074)
  else .fin sign (2 ^ 52 + fr) ((ex : Int) - 1075)

/-- A binary64 pattern from its sign and its other 63 bits. -/
def pack64 (sign : Bool) (mag : Nat) : F64 :=
  BitVec.ofNat 64 ((if sign then 2 ^ 63 else 0) + mag)

/-- Some NaN pattern, the free value of log entry 4: exponent all ones, fraction not zero. -/
def nan64 (op : Nat) (a b : F64) : F64 :=
  let r := Config.nanRaw op a b
  let fr := r.toNat % 2 ^ 52
  pack64 (r.getLsbD 52) (0x7FF0000000000000 + (if fr = 0 then 1 else fr))

/-- Infinity. -/
def inf64 (sign : Bool) : F64 := pack64 sign 0x7FF0000000000000

/-- `floor(log2(n / d))` for positive `n` and `d`. -/
def floorLog2 (n d : Nat) : Int :=
  let l : Int := (n.log2 : Int) - (d.log2 : Int)
  if n * 2 ^ (-l).toNat < d * 2 ^ l.toNat then l - 1 else l

/-- The exponent of the last place of the binary64 numbers around `n / d`. -/
def ulpExp (n d : Nat) : Int := max (floorLog2 n d - 52) (-1074)

/-- `n / d` rounded to the nearest integer, ties to even. -/
def roundDiv (n d : Nat) : Nat :=
  let q := n / d
  let r := n % d
  if 2 * r > d ∨ (2 * r = d ∧ q % 2 = 1) then q + 1 else q

/-- The binary64 number nearest to `(-1)^sign * n / d`, ties to even; infinity beyond the range.
A carry out of the significand raises the exponent field by itself, since the fields adjoin. -/
def round64 (sign : Bool) (n d : Nat) : F64 :=
  if n = 0 then pack64 sign 0
  else
    let q := ulpExp n d
    let m := roundDiv (n * 2 ^ (-q).toNat) (d * 2 ^ q.toNat)
    pack64 sign (min ((q + 1074).toNat * 2 ^ 52 + m) 0x7FF0000000000000)

/-- `w(x)`: the exact widening of a binary32 value to binary64 (R146). -/
def widen (x : F32) : F64 :=
  match val32 x with
  | .nan => nan64 0 (BitVec.setWidth 64 x) 0
  | .inf sg => inf64 sg
  | .fin sg m e => round64 sg (m * 2 ^ e.toNat) (2 ^ (-e).toNat)

/-- The binary64 product. -/
def mul64 (a b : F64) : F64 :=
  match val64 a, val64 b with
  | .nan, _ => nan64 1 a b
  | _, .nan => nan64 1 a b
  | .inf sa, .inf sb => inf64 (sa != sb)
  | .inf sa, .fin sb m _ => if m = 0 then nan64 1 a b else inf64 (sa != sb)
  | .fin sa m _, .inf sb => if m = 0 then nan64 1 a b else inf64 (sa != sb)
  | .fin sa m e, .fin sb n f =>
    round64 (sa != sb) (m * n * 2 ^ (e + f).toNat) (2 ^ (-(e + f)).toNat)

/-- The binary64 quotient. -/
def div64 (a b : F64) : F64 :=
  match val64 a, val64 b with
  | .nan, _ => nan64 2 a b
  | _, .nan => nan64 2 a b
  | .inf _, .inf _ => nan64 2 a b
  | .inf sa, .fin sb _ _ => inf64 (sa != sb)
  | .fin sa _ _, .inf sb => pack64 (sa != sb) 0
  | .fin sa m e, .fin sb n f =>
    if n = 0 then (if m = 0 then nan64 2 a b else inf64 (sa != sb))
    else round64 (sa != sb) (m * 2 ^ (e - f).toNat) (n * 2 ^ (f - e).toNat)

/-- The binary64 number nearest to a natural number. -/
def ofNat64 (n : Nat) : F64 := round64 false n 1

/-- `PI`, the binary64 number nearest to pi (R146). -/
def pi64 : F64 := 0x400921FB54442D18

/-- `2.0 * PI` (R146). -/
def twoPi64 : F64 := mul64 (ofNat64 2) pi64

/-- The nearest integer to a number that is not negative, ties to even. -/
def roundEven {K : Type} [Semifield K] [LinearOrder K] [IsStrictOrderedRing K] [FloorSemiring K]
    (y : K) : Nat :=
  let f := ⌊y⌋₊
  if 2 * (f : K) + 1 < 2 * y ∨ (2 * (f : K) + 1 = 2 * y ∧ f % 2 = 1) then f + 1 else f

/-- The binary64 number nearest to a positive number of any ordered field, ties to even; infinity
beyond the range. `round64` is the same for a fraction in two parts. -/
def nearest64 {K : Type} [Semifield K] [LinearOrder K] [IsStrictOrderedRing K] [FloorSemiring K]
    (x : K) : F64 :=
  let q : Int := max (Int.log 2 x - 52) (-1074)
  pack64 false (min ((q + 1074).toNat * 2 ^ 52 + roundEven (x / (2 : K) ^ q)) 0x7FF0000000000000)

/-- The default bodies of R146, for a `TIMER_HZ`: a real, as R7 has it, or a fraction. The spec
gives the operand of `ticks_us` no type, width or conversion: that it is a natural number, rounded to
binary64 before the product, and that `TIMER_HZ` is rounded to binary64 before the quotient, are this
model's choices (log entry 18). -/
def numDefault {K : Type} [Semifield K] [LinearOrder K] [IsStrictOrderedRing K] [FloorSemiring K]
    (timerHz : K) : Num :=
  { deg := fun x => div64 (mul64 (widen x) (ofNat64 180)) pi64
    rpm := fun x => div64 (mul64 (widen x) (ofNat64 60)) twoPi64
    pct := fun x => mul64 (widen x) (ofNat64 100)
    volt := fun b p => mul64 (widen b) (widen p)
    ticksUs := fun t => div64 (mul64 (ofNat64 t) (ofNat64 1000000)) (nearest64 timerHz) }

/-- `c` takes R7's default for `NUM`: the bodies of R146 with its own `TIMER_HZ`. -/
def NumIsDefault (c : Cfg) : Prop := c.num = numDefault c.timerHz

/-- The configuration the machine runs under: R7's defaults, and an open value where R7 gives none
(log entries 3 and 10). Every meaning takes a configuration as its argument; this one is the one that
`exec` and `step` pass. Its `NUM` is the default (Laws/Codec.lean, `cfg_numIsDefault`), taken at the
fraction that its `TIMER_HZ` is. -/
def cfg : Cfg :=
  { crcPoly := Config.crcPolyDefault
    crcReflect := Config.crcReflectDefault
    crcXorout := Config.crcXoroutDefault
    idTable := MsgType.id
    stateW := Config.stateWDefault
    cntW := Config.cntWDefault
    statusTelem := Config.statusTelem
    waveSize := Config.waveSize
    ttrSize := Config.ttrSize
    timerHz := (Config.timerHz : ℝ)
    num := numDefault Config.timerHz }

end Sys2Proof.Machine
end

