-- ==== Sys2Proof/Machine/Crc.lean ====
section
/-! DEFINITION. The CRC-16 generator (spec/40_crc.md R110 to R118) and the frame builder that uses it
(spec/43_codec_encode.md R191). -/

namespace Sys2Proof.Machine

/-- One shift of the register (R111). -/
def crcBit (poly c : BitVec 16) : BitVec 16 :=
  if c.getLsbD 15 then (c <<< 1) ^^^ poly else c <<< 1

/-- Eight shifts (R111). -/
def crcShift8 (poly c : BitVec 16) : BitVec 16 :=
  crcBit poly (crcBit poly (crcBit poly (crcBit poly
    (crcBit poly (crcBit poly (crcBit poly (crcBit poly c)))))))

/-- One byte enters the register (R111): reflected where the parameters say so, at the top. -/
def crcByte (cfg : Cfg) (c : BitVec 16) (b : Byte) : BitVec 16 :=
  crcShift8 cfg.crcPoly (c ^^^ (BitVec.setWidth 16 (if cfg.crcReflect then b.reverse else b) <<< 8))

/-- The register after a byte sequence (R111). -/
def crcReg (cfg : Cfg) (c : BitVec 16) (bs : List Byte) : BitVec 16 := bs.foldl (crcByte cfg) c

/-- The final reflection and XOR (R111). -/
def crcFinal (cfg : Cfg) (c : BitVec 16) : BitVec 16 :=
  (if cfg.crcReflect then c.reverse else c) ^^^ cfg.crcXorout

/-- `CRC16(bytes, length, initial)` (R111): the bytes at indices below `length`, in order. -/
def crc16 (cfg : Cfg) (bytes : List Byte) (length : Nat) (initial : BitVec 16) : BitVec 16 :=
  crcFinal cfg (crcReg cfg initial (bytes.take length))

/-- The CRC of a frame's header and body (R72, R113). -/
def frameCrc (cfg : Cfg) (head : List Byte) : BitVec 16 :=
  crc16 cfg head head.length Config.crcInit

/-- `BUILD(type_id, instance, body)` (R191): header, body, CRC low byte first. -/
def buildFrame (cfg : Cfg) (t : Byte) (inst : U16) (body : List Byte) : List Byte :=
  frameHead t inst body ++ le (frameCrc cfg (frameHead t inst body)).toNat 2

end Sys2Proof.Machine
end

