-- ==== Sys2Proof/Machine/Operands.lean ====
section
/-! DEFINITION. Field extraction and field writers, the operand forms of every decoder and encoder
(spec/42_codec_decode.md R145; spec/43_codec_encode.md R171). -/

namespace Sys2Proof.Machine

/-! ## Extraction (R145): total, any byte values -/

/-- `body[o .. o+n)`: a `char[n]` or `raw[n]` field, with no search for a terminator. -/
def bytesAt (body : List Byte) (o n : Nat) : List Byte := (body.drop o).take n

/-- `u8 @o`, `u16 @o`, `u32 @o` for `n` = 1, 2, 4: the unsigned value. -/
def uintAt (body : List Byte) (o n : Nat) : Int := (unle (bytesAt body o n) : Nat)

/-- `f32 @o`: the 32-bit pattern. -/
def f32At (body : List Byte) (o : Nat) : F32 := BitVec.ofNat 32 (unle (bytesAt body o 4))

/-- `n` consecutive `f32` fields from offset `o` on. -/
def f32sAt (body : List Byte) (o n : Nat) : List F32 :=
  (List.range n).map fun i => f32At body (o + 4 * i)

/-! ## Writers (R171): a writer that fails names its field -/

/-- `put_u(n, v, field)`: the range check comes first. -/
def putU (n : Nat) (v : Int) (field : Field) : Except Field (List Byte) :=
  if v < 0 ∨ (2 : Int) ^ (8 * n) ≤ v then .error field else .ok (le v.toNat n)

/-- `put_f32(bits)`: no check. -/
def putF32 (x : F32) : Except Field (List Byte) := .ok (le x.toNat 4)

/-- `pad_n(s)`: `s` filled to `n` bytes with `0x00`. -/
def padTo (n : Nat) (s : List Byte) : List Byte := s ++ List.replicate (n - s.length) 0

/-- `put_char(n, s, field)`: a longer sequence is an error, not a truncation. -/
def putChar (n : Nat) (s : List Byte) (field : Field) : Except Field (List Byte) :=
  if n < s.length then .error field else .ok (padTo n s)

/-- `put_raw(n, s, field)`: exactly `n` bytes. -/
def putRaw (n : Nat) (s : List Byte) (field : Field) : Except Field (List Byte) :=
  if s.length ≠ n then .error field else .ok s

/-- The writers of a layout, one after the other: "Fields are checked in layout order and the first
failing field is the one reported" (R171). -/
def putAll : List (Except Field (List Byte)) → Except Field (List Byte)
  | [] => .ok []
  | .error e :: _ => .error e
  | .ok a :: ws =>
    match putAll ws with
    | .ok b => .ok (a ++ b)
    | .error e => .error e

end Sys2Proof.Machine
end

