-- ==== Sys2Proof/Machine/Enc.lean ====
section
/-! DEFINITION. The codec multiplexer, encode side (spec/43_codec_encode.md R170 to R184): the
encoders of the layouts of R79 to R90, the selector, and the MSG-format instructions. -/

namespace Sys2Proof.Machine

/-! ## The encoders: a body of exactly `SIZE` bytes, or the first field that does not fit -/

/-- R172. -/
def bodyAssertMessage (m : AssertMessage) : Except Field (List Byte) :=
  putAll [putU 4 m.action .action, putChar Config.textCap m.message .message, putU 4 m.valid .valid]

/-- R173. -/
def bodyDebugMessage (m : DebugMessage) : Except Field (List Byte) :=
  putAll [putChar Config.textCap m.message .message, putU 4 m.valid .valid]

/-- R174. -/
def bodyCaptureData (m : CaptureData) : Except Field (List Byte) :=
  putAll [putF32 m.time, putF32 m.channel0, putF32 m.channel1, putF32 m.channel2, putF32 m.channel3,
    putF32 m.channel4, putF32 m.channel5, putF32 m.channel6, putF32 m.channel7]

/-- R175. -/
def bodyDrivingCommand (m : DrivingCommand) : Except Field (List Byte) :=
  putAll [putU 4 m.movementBitmask .movementBitmask, putF32 m.linearVelocity, putF32 m.angularVelocity]

/-- R176. -/
def bodyCaptureCommand (m : CaptureCommand) : Except Field (List Byte) :=
  putAll [putU 1 m.isStart .isStart, putU 1 m.paused .paused, putU 2 m.freq .freq,
    putU 4 m.desiredSamples .desiredSamples, putU 4 m.totalSamples .totalSamples]

/-- The telemetry fields of a StatusData: `n` patterns, `n` the length of `STATUS_TELEM` (R177). -/
def putTelem (n : Nat) (telem : List F32) : Except Field (List Byte) :=
  if telem.length ≠ n then .error .telem else putAll (telem.map putF32)

/-- The fields of a StatusData in layout order (R84, R177): raw fields only, `derived` is ignored. -/
def fieldsStatusData (cfg : Cfg) (m : StatusData) : Except Field (List Byte) :=
  putAll [putF32 m.battery, putF32 m.roll, putF32 m.pitch, putF32 m.yaw,
    putU 1 m.mainMode .mainMode, putU 1 m.subMode .subMode, putU 1 m.state .state, putU 1 m.pad .pad,
    putTelem cfg.statusTelem.length m.telem]

/-- R177: the length of the telemetry list is tested before any field is written. -/
def bodyStatusData (cfg : Cfg) (m : StatusData) : Except Field (List Byte) :=
  if m.telem.length ≠ cfg.statusTelem.length then .error .telem else fieldsStatusData cfg m

/-- R178. -/
def bodyModes (m : Modes) : Except Field (List Byte) :=
  putAll [putU 1 m.mainMode .mainMode, putU 1 m.subMode .subMode, putU 1 m.state .state]

/-- R179. -/
def bodyRobotCommand (m : RobotCommand) : Except Field (List Byte) := putU 1 m.command .command

/-- R180. -/
def bodyWave (cfg : Cfg) (m : Wave) : Except Field (List Byte) := putRaw cfg.waveSize m.raw .raw

/-- R181. -/
def bodyPidParams (m : PidParams) : Except Field (List Byte) :=
  putAll [putF32 m.kp, putF32 m.ki, putF32 m.kd, putF32 m.integralLo, putF32 m.integralHi,
    putF32 m.lo, putF32 m.hi]

/-- R182: the requested id is not checked against the id table. -/
def bodyRequest (m : Request) : Except Field (List Byte) := putU 1 m.requestedTypeId .requestedTypeId

/-- R183. -/
def bodyTaskTimingResult (cfg : Cfg) (m : TaskTimingResult) : Except Field (List Byte) :=
  putAll [putChar Config.taskNameCap m.taskName .taskName,
    putRaw (cfg.ttrSize - Config.taskNameCap) m.timing .timing]

/-! ## The selector (R170) -/

/-- `ENC(msg)`: the body of a message by its variant's encoder (R170). -/
def encodeBody (cfg : Cfg) : Message → Except Field (List Byte)
  | .assertMessage m => bodyAssertMessage m
  | .debugMessage m => bodyDebugMessage m
  | .captureData m => bodyCaptureData m
  | .drivingCommand m => bodyDrivingCommand m
  | .captureCommand m => bodyCaptureCommand m
  | .statusData m => bodyStatusData cfg m
  | .modes m => bodyModes m
  | .robotCommand m => bodyRobotCommand m
  | .wave m => bodyWave cfg m
  | .pidParams m => bodyPidParams m
  | .request m => bodyRequest m
  | .taskTimingResult m => bodyTaskTimingResult cfg m

/-- The body TX.SEND puts on the wire: `ENC`'s (R190), but with every check in layout order (R227, D25),
which of the encoders only ENC.StatusData's own order differs from (R177; log entry 20). -/
def sendBody (cfg : Cfg) (msg : Message) : Except Field (List Byte) :=
  match msg with
  | .statusData m => fieldsStatusData cfg m
  | .assertMessage _ | .debugMessage _ | .captureData _ | .drivingCommand _ | .captureCommand _
  | .modes _ | .robotCommand _ | .wave _ | .pidParams _ | .request _ | .taskTimingResult _ =>
    encodeBody cfg msg

/-! ## The MSG-format instructions

"No encoder reads or writes a register": an encoder's whole effect is the value it returns, its type
id and body, or the EncodingError it raises. `execXUnder c` is the meaning under a configuration
(R32), `execX` the same under `cfg`. -/

/-- What an encoder returns, as the operation's outcome. -/
def returnBody (t : Byte) (r : Except Field (List Byte)) (s : State) : State :=
  match r with
  | .ok body => s.finish (.encoded t body)
  | .error f => s.finish (.encodingError f)

/-- ENC.AssertMessage (R172). -/
def execEncAssertMessageUnder (c : Cfg) (m : AssertMessage) (s : State) :
    Host.Outcome State Fault Refusal :=
  .next (returnBody (c.idTable .assertMessage) (bodyAssertMessage m) s)

/-- The same under the machine's configuration. -/
def execEncAssertMessage (m : AssertMessage) (s : State) : Host.Outcome State Fault Refusal :=
  execEncAssertMessageUnder cfg m s

/-- ENC.DebugMessage (R173). -/
def execEncDebugMessageUnder (c : Cfg) (m : DebugMessage) (s : State) :
    Host.Outcome State Fault Refusal :=
  .next (returnBody (c.idTable .debugMessage) (bodyDebugMessage m) s)

/-- The same under the machine's configuration. -/
def execEncDebugMessage (m : DebugMessage) (s : State) : Host.Outcome State Fault Refusal :=
  execEncDebugMessageUnder cfg m s

/-- ENC.CaptureData (R174). -/
def execEncCaptureDataUnder (c : Cfg) (m : CaptureData) (s : State) :
    Host.Outcome State Fault Refusal :=
  .next (returnBody (c.idTable .captureData) (bodyCaptureData m) s)

/-- The same under the machine's configuration. -/
def execEncCaptureData (m : CaptureData) (s : State) : Host.Outcome State Fault Refusal :=
  execEncCaptureDataUnder cfg m s

/-- ENC.DrivingCommand (R175). -/
def execEncDrivingCommandUnder (c : Cfg) (m : DrivingCommand) (s : State) :
    Host.Outcome State Fault Refusal :=
  .next (returnBody (c.idTable .drivingCommand) (bodyDrivingCommand m) s)

/-- The same under the machine's configuration. -/
def execEncDrivingCommand (m : DrivingCommand) (s : State) : Host.Outcome State Fault Refusal :=
  execEncDrivingCommandUnder cfg m s

/-- ENC.CaptureCommand (R176). -/
def execEncCaptureCommandUnder (c : Cfg) (m : CaptureCommand) (s : State) :
    Host.Outcome State Fault Refusal :=
  .next (returnBody (c.idTable .captureCommand) (bodyCaptureCommand m) s)

/-- The same under the machine's configuration. -/
def execEncCaptureCommand (m : CaptureCommand) (s : State) : Host.Outcome State Fault Refusal :=
  execEncCaptureCommandUnder cfg m s

/-- ENC.StatusData (R177). -/
def execEncStatusDataUnder (c : Cfg) (m : StatusData) (s : State) :
    Host.Outcome State Fault Refusal :=
  .next (returnBody (c.idTable .statusData) (bodyStatusData c m) s)

/-- The same under the machine's configuration. -/
def execEncStatusData (m : StatusData) (s : State) : Host.Outcome State Fault Refusal :=
  execEncStatusDataUnder cfg m s

/-- ENC.Modes (R178). -/
def execEncModesUnder (c : Cfg) (m : Modes) (s : State) : Host.Outcome State Fault Refusal :=
  .next (returnBody (c.idTable .modes) (bodyModes m) s)

/-- The same under the machine's configuration. -/
def execEncModes (m : Modes) (s : State) : Host.Outcome State Fault Refusal :=
  execEncModesUnder cfg m s

/-- ENC.RobotCommand (R179). -/
def execEncRobotCommandUnder (c : Cfg) (m : RobotCommand) (s : State) :
    Host.Outcome State Fault Refusal :=
  .next (returnBody (c.idTable .robotCommand) (bodyRobotCommand m) s)

/-- The same under the machine's configuration. -/
def execEncRobotCommand (m : RobotCommand) (s : State) : Host.Outcome State Fault Refusal :=
  execEncRobotCommandUnder cfg m s

/-- ENC.Wave (R180). -/
def execEncWaveUnder (c : Cfg) (m : Wave) (s : State) : Host.Outcome State Fault Refusal :=
  .next (returnBody (c.idTable .wave) (bodyWave c m) s)

/-- The same under the machine's configuration. -/
def execEncWave (m : Wave) (s : State) : Host.Outcome State Fault Refusal :=
  execEncWaveUnder cfg m s

/-- ENC.PidParams (R181). -/
def execEncPidParamsUnder (c : Cfg) (m : PidParams) (s : State) :
    Host.Outcome State Fault Refusal :=
  .next (returnBody (c.idTable .pidParams) (bodyPidParams m) s)

/-- The same under the machine's configuration. -/
def execEncPidParams (m : PidParams) (s : State) : Host.Outcome State Fault Refusal :=
  execEncPidParamsUnder cfg m s

/-- ENC.Request (R182). -/
def execEncRequestUnder (c : Cfg) (m : Request) (s : State) : Host.Outcome State Fault Refusal :=
  .next (returnBody (c.idTable .request) (bodyRequest m) s)

/-- The same under the machine's configuration. -/
def execEncRequest (m : Request) (s : State) : Host.Outcome State Fault Refusal :=
  execEncRequestUnder cfg m s

/-- ENC.TaskTimingResult (R183). -/
def execEncTaskTimingResultUnder (c : Cfg) (m : TaskTimingResult) (s : State) :
    Host.Outcome State Fault Refusal :=
  .next (returnBody (c.idTable .taskTimingResult) (bodyTaskTimingResult c m) s)

/-- The same under the machine's configuration. -/
def execEncTaskTimingResult (m : TaskTimingResult) (s : State) : Host.Outcome State Fault Refusal :=
  execEncTaskTimingResultUnder cfg m s

end Sys2Proof.Machine
end

