-- ==== Sys2Proof/Machine/Port.lean ====
section
/-! DEFINITION. The command port: RESET, CONNECT, DISCONNECT, STAT.READ (spec/44_control.md R200 to
R206), TX.SEND (spec/43_codec_encode.md R190 to R193) and CRC16 (spec/40_crc.md R110). The commands
that read a parameter are `execXUnder c` under a configuration (R32), `execX` the same under `cfg`. -/

namespace Sys2Proof.Machine

/-- The parser idle, the counters zero and `connected` at a given value: the three reset columns of
R37 (R250). The ghost streams are kept (R33). -/
def State.restart (s : State) (conn : Bool) : State := (s.idleParser.zeroStats).setConnected conn

/-- RESET (R200). -/
def execReset (s : State) : Host.Outcome State Fault Refusal := .next ((s.restart false).finish .done)

/-- CONNECT (R201): the connection check comes before `open_ok` (R227). -/
def execConnect (openOk : Bool) (s : State) : Host.Outcome State Fault Refusal :=
  if s.connected then .next (s.finish .alreadyConnected)
  else if openOk then .next ((s.restart true).finish .connected)
  else .next (s.finish .connectionFailure)

/-- DISCONNECT (R203): it returns whether a connection was closed. -/
def execDisconnect (s : State) : Host.Outcome State Fault Refusal :=
  .next ((s.restart false).finish (.closed s.connected))

/-- A frame handed to the transport (R190): emitted in one piece, then counted. -/
def sendFrame (c : Cfg) (f : List Byte) (s : State) : State :=
  ((s.record.emitTx f).bumpSent c f.length).finish (.sent f)

/-- Whether the `instance` operand fits the wire's u16 (R190, D18). -/
def instFits (inst : Int) : Bool := decide (0 ≤ inst) && decide (inst < 65536)

/-- TX.SEND (R190): the connection check first, then the body fields, then the instance (R227). -/
def execTxSendUnder (c : Cfg) (msg : Message) (inst : Int) (s : State) :
    Host.Outcome State Fault Refusal :=
  if !s.connected then .next (s.finish .notConnected)
  else
    match sendBody c msg with
    | .error f => .next (s.finish (.encodingError f))
    | .ok body =>
      if instFits inst then
        .next (sendFrame c (buildFrame c (c.idTable msg.type) (BitVec.ofInt 16 inst) body) s)
      else .next (s.finish (.encodingError .inst))

/-- The same under the machine's configuration. -/
def execTxSend (msg : Message) (inst : Int) (s : State) : Host.Outcome State Fault Refusal :=
  execTxSendUnder cfg msg inst s

/-- STAT.READ (R205, R206): nothing changes but the reader's place in the operation order, which
bounds what its next read may return. The newest frame whose dispatch the reader has
seen bounds this one's `msgs_rcvd` (R60); `ev` itself is not read (R33). -/
def execStatRead (reader : Reader) (lag : Lag) (s : State) : Host.Outcome State Fault Refusal :=
  .next ((s.setMark reader.agent).finish (.stats (s.statsSeen reader lag)))

/-- CRC16 at the command port (R110, R207): pure; refused where `length > |bytes|`. -/
def execCrc16Under (c : Cfg) (bytes : List Byte) (length : Nat) (initial : BitVec 16) (s : State) :
    Host.Outcome State Fault Refusal :=
  if length ≤ bytes.length then .next (s.finish (.crc (crc16 c bytes length initial)))
  else .refused .crcLengthBeyondBytes

/-- The same under the machine's configuration. -/
def execCrc16 (bytes : List Byte) (length : Nat) (initial : BitVec 16) (s : State) :
    Host.Outcome State Fault Refusal :=
  execCrc16Under cfg bytes length initial s

end Sys2Proof.Machine
end

