-- ==== Sys2Proof/Machine/Dec.lean ====
section
/-! DEFINITION. The codec multiplexer, decode side (spec/42_codec_decode.md R140 to R158): the
decoders of the layouts of R79 to R90, the selector, and the FRAME-format instructions. -/

namespace Sys2Proof.Machine

/-! ## The decoders: a message from a body of at least `SIZE` bytes -/

/-- R147. -/
def decodeAssertMessage (body : List Byte) : AssertMessage :=
  { action := uintAt body 0 4, message := bytesAt body 4 Config.textCap, valid := uintAt body 204 4 }

/-- R148. -/
def decodeDebugMessage (body : List Byte) : DebugMessage :=
  { message := bytesAt body 0 Config.textCap, valid := uintAt body 200 4 }

/-- R149. -/
def decodeCaptureData (body : List Byte) : CaptureData :=
  { time := f32At body 0
    channel0 := f32At body 4
    channel1 := f32At body 8
    channel2 := f32At body 12
    channel3 := f32At body 16
    channel4 := f32At body 20
    channel5 := f32At body 24
    channel6 := f32At body 28
    channel7 := f32At body 32 }

/-- R150. -/
def decodeDrivingCommand (body : List Byte) : DrivingCommand :=
  { movementBitmask := uintAt body 0 4, linearVelocity := f32At body 4, angularVelocity := f32At body 8 }

/-- R151. -/
def decodeCaptureCommand (body : List Byte) : CaptureCommand :=
  { isStart := uintAt body 0 1
    paused := uintAt body 1 1
    freq := uintAt body 2 2
    desiredSamples := uintAt body 4 4
    totalSamples := uintAt body 8 4 }

/-- The derived fields of one telemetry entry, by its role (R152). -/
def deriveTelem (num : Num) (battery : F32) (role : Role) (x : F32) : TelemDerived :=
  match role with
  | .angVel => .rpm (num.rpm x)
  | .pwm => .pctVolt (num.pct x) (num.volt battery x)
  | .plain => .none

/-- The derived fields of a StatusData (R152). -/
def deriveStatus (cfg : Cfg) (battery roll pitch yaw : F32) (telem : List F32) : StatusDerived :=
  { rollDeg := cfg.num.deg roll
    pitchDeg := cfg.num.deg pitch
    yawDeg := cfg.num.deg yaw
    telem := List.zipWith (deriveTelem cfg.num battery) (cfg.statusTelem.map (·.2)) telem }

/-- R152. -/
def decodeStatusData (cfg : Cfg) (body : List Byte) : StatusData :=
  let telem := f32sAt body 20 cfg.statusTelem.length
  { battery := f32At body 0
    roll := f32At body 4
    pitch := f32At body 8
    yaw := f32At body 12
    mainMode := uintAt body 16 1
    subMode := uintAt body 17 1
    state := uintAt body 18 1
    pad := uintAt body 19 1
    telem := telem
    derived := some (deriveStatus cfg (f32At body 0) (f32At body 4) (f32At body 8) (f32At body 12) telem) }

/-- R153. -/
def decodeModes (body : List Byte) : Modes :=
  { mainMode := uintAt body 0 1, subMode := uintAt body 1 1, state := uintAt body 2 1 }

/-- R154. -/
def decodeRobotCommand (body : List Byte) : RobotCommand := { command := uintAt body 0 1 }

/-- R155. -/
def decodeWave (cfg : Cfg) (body : List Byte) : Wave := { raw := bytesAt body 0 cfg.waveSize }

/-- R156. -/
def decodePidParams (body : List Byte) : PidParams :=
  { kp := f32At body 0
    ki := f32At body 4
    kd := f32At body 8
    integralLo := f32At body 12
    integralHi := f32At body 16
    lo := f32At body 20
    hi := f32At body 24 }

/-- R157. -/
def decodeTaskTimingResult (cfg : Cfg) (body : List Byte) : TaskTimingResult :=
  { taskName := bytesAt body 0 Config.taskNameCap
    timing := bytesAt body Config.taskNameCap (cfg.ttrSize - Config.taskNameCap) }

/-! ## The selector (R140) -/

/-- A decode failure (R142, R143): `dropped` moves, one Report on `ev`, no dispatch. -/
def failDecode (c : Cfg) (r : OpResult) (s : State) : State :=
  ((s.bumpDropped c).emitEv (.report r)).finish r

/-- A decoded message (R140): one dispatch event, which is also the outcome. -/
def dispatchMsg (t : Byte) (inst : U16) (m : Message) (s : State) : State :=
  (s.emitEv (.dispatch t inst m)).finish (.dispatched t inst m)

/-- `DEC` for a type that has a decoder (R140, R141): a body shorter than `SIZE` is a DecodingError,
and the decoder gets exactly `body[0 .. SIZE)` otherwise. -/
def deliver (c : Cfg) (ty : MsgType) (inst : U16) (body : List Byte) (decoder : List Byte → Message)
    (s : State) : State :=
  if body.length < ty.size c then
    failDecode c (.decodingError (c.idTable ty) inst body.length (ty.size c)) s
  else dispatchMsg (c.idTable ty) inst (decoder (body.take (ty.size c))) s

/-- DEC.AssertMessage (R140, R147). -/
def decAssertMessage (c : Cfg) (inst : U16) (body : List Byte) (s : State) : State :=
  deliver c .assertMessage inst body (fun b => .assertMessage (decodeAssertMessage b)) s

/-- DEC.DebugMessage (R140, R148). -/
def decDebugMessage (c : Cfg) (inst : U16) (body : List Byte) (s : State) : State :=
  deliver c .debugMessage inst body (fun b => .debugMessage (decodeDebugMessage b)) s

/-- DEC.CaptureData (R140, R149). -/
def decCaptureData (c : Cfg) (inst : U16) (body : List Byte) (s : State) : State :=
  deliver c .captureData inst body (fun b => .captureData (decodeCaptureData b)) s

/-- DEC.DrivingCommand (R140, R150). -/
def decDrivingCommand (c : Cfg) (inst : U16) (body : List Byte) (s : State) : State :=
  deliver c .drivingCommand inst body (fun b => .drivingCommand (decodeDrivingCommand b)) s

/-- DEC.CaptureCommand (R140, R151). -/
def decCaptureCommand (c : Cfg) (inst : U16) (body : List Byte) (s : State) : State :=
  deliver c .captureCommand inst body (fun b => .captureCommand (decodeCaptureCommand b)) s

/-- DEC.StatusData (R140, R152). -/
def decStatusData (c : Cfg) (inst : U16) (body : List Byte) (s : State) : State :=
  deliver c .statusData inst body (fun b => .statusData (decodeStatusData c b)) s

/-- DEC.Modes (R140, R153). -/
def decModes (c : Cfg) (inst : U16) (body : List Byte) (s : State) : State :=
  deliver c .modes inst body (fun b => .modes (decodeModes b)) s

/-- DEC.RobotCommand (R140, R154). -/
def decRobotCommand (c : Cfg) (inst : U16) (body : List Byte) (s : State) : State :=
  deliver c .robotCommand inst body (fun b => .robotCommand (decodeRobotCommand b)) s

/-- DEC.Wave (R140, R155). -/
def decWave (c : Cfg) (inst : U16) (body : List Byte) (s : State) : State :=
  deliver c .wave inst body (fun b => .wave (decodeWave c b)) s

/-- DEC.PidParams (R140, R156). -/
def decPidParams (c : Cfg) (inst : U16) (body : List Byte) (s : State) : State :=
  deliver c .pidParams inst body (fun b => .pidParams (decodePidParams b)) s

/-- DEC.TaskTimingResult (R140, R157). -/
def decTaskTimingResult (c : Cfg) (inst : U16) (body : List Byte) (s : State) : State :=
  deliver c .taskTimingResult inst body (fun b => .taskTimingResult (decodeTaskTimingResult c b)) s

/-- DEC.UNKNOWN (R143): the body is not examined. -/
def decUnknown (c : Cfg) (t : Byte) (inst : U16) (s : State) : State := failDecode c (.unknownType t inst) s

/-- `DEC(type_id, instance, body)` (R140): the type lookup comes before the length check (R227). -/
def dec (c : Cfg) (t : Byte) (inst : U16) (body : List Byte) (s : State) : State :=
  match c.idTable.typeOf t with
  | some .assertMessage => decAssertMessage c inst body s
  | some .debugMessage => decDebugMessage c inst body s
  | some .captureData => decCaptureData c inst body s
  | some .drivingCommand => decDrivingCommand c inst body s
  | some .captureCommand => decCaptureCommand c inst body s
  | some .statusData => decStatusData c inst body s
  | some .modes => decModes c inst body s
  | some .robotCommand => decRobotCommand c inst body s
  | some .wave => decWave c inst body s
  | some .pidParams => decPidParams c inst body s
  | some .taskTimingResult => decTaskTimingResult c inst body s
  | some .request => decUnknown c t inst s
  | none => decUnknown c t inst s

/-! ## The FRAME-format instructions

A decoder runs inside the RX.BYTE that completed the frame (R130, R131), where it is called as above.
Started alone at the codec's port it finds a connection closed or open; while `connected = 0` there is
no parser, no event arises and no counter moves (R29 (c), R232), so it is ignored as a byte would be
(R120; log entry 7).

Each meaning takes the configuration (R32): `execXUnder c` is it, `execX` is it under `cfg`. -/

/-- An operation at the codec's port. -/
def codecPort (run : State → State) (s : State) : Host.Outcome State Fault Refusal :=
  if s.connected then .next (run s.record) else .next (s.finish .ignored)

/-- DEC.AssertMessage. -/
def execDecAssertMessageUnder (c : Cfg) (inst : U16) (body : List Byte) (s : State) :
    Host.Outcome State Fault Refusal :=
  codecPort (decAssertMessage c inst body) s

/-- The same under the machine's configuration. -/
def execDecAssertMessage (inst : U16) (body : List Byte) (s : State) :
    Host.Outcome State Fault Refusal :=
  execDecAssertMessageUnder cfg inst body s

/-- DEC.DebugMessage. -/
def execDecDebugMessageUnder (c : Cfg) (inst : U16) (body : List Byte) (s : State) :
    Host.Outcome State Fault Refusal :=
  codecPort (decDebugMessage c inst body) s

/-- The same under the machine's configuration. -/
def execDecDebugMessage (inst : U16) (body : List Byte) (s : State) :
    Host.Outcome State Fault Refusal :=
  execDecDebugMessageUnder cfg inst body s

/-- DEC.CaptureData. -/
def execDecCaptureDataUnder (c : Cfg) (inst : U16) (body : List Byte) (s : State) :
    Host.Outcome State Fault Refusal :=
  codecPort (decCaptureData c inst body) s

/-- The same under the machine's configuration. -/
def execDecCaptureData (inst : U16) (body : List Byte) (s : State) :
    Host.Outcome State Fault Refusal :=
  execDecCaptureDataUnder cfg inst body s

/-- DEC.DrivingCommand. -/
def execDecDrivingCommandUnder (c : Cfg) (inst : U16) (body : List Byte) (s : State) :
    Host.Outcome State Fault Refusal :=
  codecPort (decDrivingCommand c inst body) s

/-- The same under the machine's configuration. -/
def execDecDrivingCommand (inst : U16) (body : List Byte) (s : State) :
    Host.Outcome State Fault Refusal :=
  execDecDrivingCommandUnder cfg inst body s

/-- DEC.CaptureCommand. -/
def execDecCaptureCommandUnder (c : Cfg) (inst : U16) (body : List Byte) (s : State) :
    Host.Outcome State Fault Refusal :=
  codecPort (decCaptureCommand c inst body) s

/-- The same under the machine's configuration. -/
def execDecCaptureCommand (inst : U16) (body : List Byte) (s : State) :
    Host.Outcome State Fault Refusal :=
  execDecCaptureCommandUnder cfg inst body s

/-- DEC.StatusData. -/
def execDecStatusDataUnder (c : Cfg) (inst : U16) (body : List Byte) (s : State) :
    Host.Outcome State Fault Refusal :=
  codecPort (decStatusData c inst body) s

/-- The same under the machine's configuration. -/
def execDecStatusData (inst : U16) (body : List Byte) (s : State) :
    Host.Outcome State Fault Refusal :=
  execDecStatusDataUnder cfg inst body s

/-- DEC.Modes. -/
def execDecModesUnder (c : Cfg) (inst : U16) (body : List Byte) (s : State) :
    Host.Outcome State Fault Refusal :=
  codecPort (decModes c inst body) s

/-- The same under the machine's configuration. -/
def execDecModes (inst : U16) (body : List Byte) (s : State) : Host.Outcome State Fault Refusal :=
  execDecModesUnder cfg inst body s

/-- DEC.RobotCommand. -/
def execDecRobotCommandUnder (c : Cfg) (inst : U16) (body : List Byte) (s : State) :
    Host.Outcome State Fault Refusal :=
  codecPort (decRobotCommand c inst body) s

/-- The same under the machine's configuration. -/
def execDecRobotCommand (inst : U16) (body : List Byte) (s : State) :
    Host.Outcome State Fault Refusal :=
  execDecRobotCommandUnder cfg inst body s

/-- DEC.Wave. -/
def execDecWaveUnder (c : Cfg) (inst : U16) (body : List Byte) (s : State) :
    Host.Outcome State Fault Refusal :=
  codecPort (decWave c inst body) s

/-- The same under the machine's configuration. -/
def execDecWave (inst : U16) (body : List Byte) (s : State) : Host.Outcome State Fault Refusal :=
  execDecWaveUnder cfg inst body s

/-- DEC.PidParams. -/
def execDecPidParamsUnder (c : Cfg) (inst : U16) (body : List Byte) (s : State) :
    Host.Outcome State Fault Refusal :=
  codecPort (decPidParams c inst body) s

/-- The same under the machine's configuration. -/
def execDecPidParams (inst : U16) (body : List Byte) (s : State) :
    Host.Outcome State Fault Refusal :=
  execDecPidParamsUnder cfg inst body s

/-- DEC.TaskTimingResult. -/
def execDecTaskTimingResultUnder (c : Cfg) (inst : U16) (body : List Byte) (s : State) :
    Host.Outcome State Fault Refusal :=
  codecPort (decTaskTimingResult c inst body) s

/-- The same under the machine's configuration. -/
def execDecTaskTimingResult (inst : U16) (body : List Byte) (s : State) :
    Host.Outcome State Fault Refusal :=
  execDecTaskTimingResultUnder cfg inst body s

/-- DEC.UNKNOWN. -/
def execDecUnknownUnder (c : Cfg) (t : Byte) (inst : U16) (s : State) :
    Host.Outcome State Fault Refusal :=
  codecPort (decUnknown c t inst) s

/-- The same under the machine's configuration. -/
def execDecUnknown (t : Byte) (inst : U16) (s : State) : Host.Outcome State Fault Refusal :=
  execDecUnknownUnder cfg t inst s

end Sys2Proof.Machine
end

