-- ==== Sys2Proof/Machine/Rx.lean ====
section
/-! DEFINITION. The frame parser: RX.BYTE's common part and its arms, VERIFY and the end of a frame
(spec/41_frame_parser.md R120 to R132). Which arm a byte runs is the decoder's choice, by the
parser's state and the byte (R92; `decodeFsm`). `execXUnder c` is an arm under a configuration (R32),
`execX` the same under `cfg`. -/

namespace Sys2Proof.Machine

/-- The part of RX.BYTE common to all arms (R120): a byte is ignored while `connected = 0` and
counted otherwise; then the arm runs. -/
def rxByteCommon (c : Cfg) (arm : State → Host.Outcome State Fault Refusal) (s : State) :
    Host.Outcome State Fault Refusal :=
  if s.connected then arm (s.record.bumpBytesRcvd c) else .next (s.finish .ignored)

/-- An arm that stores its byte at a fixed index (R121 to R126). -/
def rxStore (a : Nat) (b : Byte) (c : BitVec 9) (st : Nat) (s : State) :
    Host.Outcome State Fault Refusal :=
  .next ((s.storeAt a b c st).finish .accepted)

/-- An arm that stores its byte at `cursor` and goes on with `rest` (R127, R128, R130). -/
def rxPush (b : Byte) (rest : State → State) (s : State) : Host.Outcome State Fault Refusal :=
  if s.canPush then .next (rest (s.push b)) else .fault .bufIndexOutOfRange

/-- `VERIFY` (R131): the CRC of `buf[0 .. 5+N)` against the two CRC bytes, low byte first; on a match
the frame counts as received and goes to the decode multiplexer. -/
def verify (c : Cfg) (s : State) : State :=
  let n := s.len.toNat
  let computed := crc16 c (s.buf.slice 0 (5 + n)) (5 + n) Config.crcInit
  let got := BitVec.ofNat 16 (s.buf.readLe (5 + n) 2)
  if computed ≠ got then (s.bumpBadCrc c).finish .badCrc
  else dec c (s.buf.read 1) (BitVec.ofNat 16 (s.buf.readLe 2 2)) (s.buf.slice 5 n) (s.bumpMsgsRcvd c)

/-- RX.WAIT (R121). -/
def execRxWaitUnder (c : Cfg) (s : State) : Host.Outcome State Fault Refusal :=
  rxByteCommon c (rxStore 0 Config.startByte 1 1) s

/-- The same under the machine's configuration. -/
def execRxWait (s : State) : Host.Outcome State Fault Refusal :=
  execRxWaitUnder cfg s

/-- RX.NOISE (R122): nothing is written but the byte count. -/
def execRxNoiseUnder (c : Cfg) (_b : Byte) (s : State) : Host.Outcome State Fault Refusal :=
  rxByteCommon c (fun s => .next (s.finish .noise)) s

/-- The same under the machine's configuration. -/
def execRxNoise (b : Byte) (s : State) : Host.Outcome State Fault Refusal :=
  execRxNoiseUnder cfg b s

/-- RX.TYPE (R123). -/
def execRxTypeUnder (c : Cfg) (b : Byte) (s : State) : Host.Outcome State Fault Refusal :=
  rxByteCommon c (rxStore 1 b 2 2) s

/-- The same under the machine's configuration. -/
def execRxType (b : Byte) (s : State) : Host.Outcome State Fault Refusal :=
  execRxTypeUnder cfg b s

/-- RX.INSTLO (R124). -/
def execRxInstloUnder (c : Cfg) (b : Byte) (s : State) : Host.Outcome State Fault Refusal :=
  rxByteCommon c (rxStore 2 b 3 3) s

/-- The same under the machine's configuration. -/
def execRxInstlo (b : Byte) (s : State) : Host.Outcome State Fault Refusal :=
  execRxInstloUnder cfg b s

/-- RX.INSTHI (R125). -/
def execRxInsthiUnder (c : Cfg) (b : Byte) (s : State) : Host.Outcome State Fault Refusal :=
  rxByteCommon c (rxStore 3 b 4 4) s

/-- The same under the machine's configuration. -/
def execRxInsthi (b : Byte) (s : State) : Host.Outcome State Fault Refusal :=
  execRxInsthiUnder cfg b s

/-- RX.LEN (R126): a zero-length body skips straight to ReadCrcLow. -/
def execRxLenUnder (c : Cfg) (b : Byte) (s : State) : Host.Outcome State Fault Refusal :=
  rxByteCommon c (fun s => rxStore 4 b 5 (if b = 0 then 6 else 5) (s.setLen b)) s

/-- The same under the machine's configuration. -/
def execRxLen (b : Byte) (s : State) : Host.Outcome State Fault Refusal :=
  execRxLenUnder cfg b s

/-- RX.BODY (R127): the state after the body byte depends on the new `cursor`. -/
def execRxBodyUnder (c : Cfg) (b : Byte) (s : State) : Host.Outcome State Fault Refusal :=
  rxByteCommon c (rxPush b fun s =>
    (s.setState (if s.cursor.toNat = 5 + s.len.toNat then 6 else 5)).finish .accepted) s

/-- The same under the machine's configuration. -/
def execRxBody (b : Byte) (s : State) : Host.Outcome State Fault Refusal :=
  execRxBodyUnder cfg b s

/-- RX.CRCLO (R128). -/
def execRxCrcloUnder (c : Cfg) (b : Byte) (s : State) : Host.Outcome State Fault Refusal :=
  rxByteCommon c (rxPush b fun s => (s.setState 7).finish .accepted) s

/-- The same under the machine's configuration. -/
def execRxCrclo (b : Byte) (s : State) : Host.Outcome State Fault Refusal :=
  execRxCrcloUnder cfg b s

/-- RX.CRCHI (R130): the one arm that ends a frame; the parser is idle afterwards whatever VERIFY
returned (R132). -/
def execRxCrchiUnder (c : Cfg) (b : Byte) (s : State) : Host.Outcome State Fault Refusal :=
  rxByteCommon c (rxPush b fun s => (verify c s).idleParser) s

/-- The same under the machine's configuration. -/
def execRxCrchi (b : Byte) (s : State) : Host.Outcome State Fault Refusal :=
  execRxCrchiUnder cfg b s

/-- RX.BADSTATE (R129): the byte is consumed and not looked at. -/
def execRxBadstateUnder (c : Cfg) (_st : Nat) (_b : Byte) (s : State) :
    Host.Outcome State Fault Refusal :=
  rxByteCommon c (fun s => .next (s.idleParser.finish .stateCorrupt)) s

/-- The same under the machine's configuration. -/
def execRxBadstate (st : Nat) (b : Byte) (s : State) : Host.Outcome State Fault Refusal :=
  execRxBadstateUnder cfg st b s

end Sys2Proof.Machine
end

