-- ==== Sys2Proof/Machine/Dispatch.lean ====
section
/-! DEFINITION. The dispatcher: one arm per constructor of Instr. -/

namespace Sys2Proof.Machine

def exec (i : Instr) (s : State) : Host.Outcome State Fault Refusal :=
  match i with
  -- format FSM (R121 to R130)
  | .rxWait => Sys2Proof.Machine.execRxWait s
  | .rxNoise b => Sys2Proof.Machine.execRxNoise b s
  | .rxType b => Sys2Proof.Machine.execRxType b s
  | .rxInstlo b => Sys2Proof.Machine.execRxInstlo b s
  | .rxInsthi b => Sys2Proof.Machine.execRxInsthi b s
  | .rxLen b => Sys2Proof.Machine.execRxLen b s
  | .rxBody b => Sys2Proof.Machine.execRxBody b s
  | .rxCrclo b => Sys2Proof.Machine.execRxCrclo b s
  | .rxCrchi b => Sys2Proof.Machine.execRxCrchi b s
  | .rxBadstate st b => Sys2Proof.Machine.execRxBadstate st b s
  -- format FRAME (R143, R147 to R157)
  | .decAssertMessage inst body => Sys2Proof.Machine.execDecAssertMessage inst body s
  | .decDebugMessage inst body => Sys2Proof.Machine.execDecDebugMessage inst body s
  | .decCaptureData inst body => Sys2Proof.Machine.execDecCaptureData inst body s
  | .decDrivingCommand inst body => Sys2Proof.Machine.execDecDrivingCommand inst body s
  | .decCaptureCommand inst body => Sys2Proof.Machine.execDecCaptureCommand inst body s
  | .decStatusData inst body => Sys2Proof.Machine.execDecStatusData inst body s
  | .decModes inst body => Sys2Proof.Machine.execDecModes inst body s
  | .decRobotCommand inst body => Sys2Proof.Machine.execDecRobotCommand inst body s
  | .decWave inst body => Sys2Proof.Machine.execDecWave inst body s
  | .decPidParams inst body => Sys2Proof.Machine.execDecPidParams inst body s
  | .decTaskTimingResult inst body => Sys2Proof.Machine.execDecTaskTimingResult inst body s
  | .decUnknown t inst => Sys2Proof.Machine.execDecUnknown t inst s
  -- format MSG (R172 to R183)
  | .encAssertMessage m => Sys2Proof.Machine.execEncAssertMessage m s
  | .encDebugMessage m => Sys2Proof.Machine.execEncDebugMessage m s
  | .encCaptureData m => Sys2Proof.Machine.execEncCaptureData m s
  | .encDrivingCommand m => Sys2Proof.Machine.execEncDrivingCommand m s
  | .encCaptureCommand m => Sys2Proof.Machine.execEncCaptureCommand m s
  | .encStatusData m => Sys2Proof.Machine.execEncStatusData m s
  | .encModes m => Sys2Proof.Machine.execEncModes m s
  | .encRobotCommand m => Sys2Proof.Machine.execEncRobotCommand m s
  | .encWave m => Sys2Proof.Machine.execEncWave m s
  | .encPidParams m => Sys2Proof.Machine.execEncPidParams m s
  | .encRequest m => Sys2Proof.Machine.execEncRequest m s
  | .encTaskTimingResult m => Sys2Proof.Machine.execEncTaskTimingResult m s
  -- format PORT (R110, R190, R200 to R205)
  | .reset => Sys2Proof.Machine.execReset s
  | .connect openOk => Sys2Proof.Machine.execConnect openOk s
  | .disconnect => Sys2Proof.Machine.execDisconnect s
  | .txSend msg inst => Sys2Proof.Machine.execTxSend msg inst s
  | .statRead reader lag => Sys2Proof.Machine.execStatRead reader lag s
  | .crc16 bytes length initial => Sys2Proof.Machine.execCrc16 bytes length initial s

end Sys2Proof.Machine
end

