-- ==== Sys2Proof/Machine/Perform.lean ====
section
/-! DEFINITION. An instruction's effect under any configuration (spec/00_scope.md R7;
spec/10_state.md R32: `cfg` is a parameter of the step functions). Dispatch.lean's `exec` is this at
the machine's configuration (Laws/Exec.lean, `exec_eq_perform`). -/

namespace Sys2Proof.Machine

/-- What an instruction does under the configuration `c`. -/
def perform (c : Cfg) (i : Instr) (s : State) : Host.Outcome State Fault Refusal :=
  match i with
  -- format FSM (R121 to R130)
  | .rxWait => execRxWaitUnder c s
  | .rxNoise b => execRxNoiseUnder c b s
  | .rxType b => execRxTypeUnder c b s
  | .rxInstlo b => execRxInstloUnder c b s
  | .rxInsthi b => execRxInsthiUnder c b s
  | .rxLen b => execRxLenUnder c b s
  | .rxBody b => execRxBodyUnder c b s
  | .rxCrclo b => execRxCrcloUnder c b s
  | .rxCrchi b => execRxCrchiUnder c b s
  | .rxBadstate st b => execRxBadstateUnder c st b s
  -- format FRAME (R143, R147 to R157)
  | .decAssertMessage inst body => execDecAssertMessageUnder c inst body s
  | .decDebugMessage inst body => execDecDebugMessageUnder c inst body s
  | .decCaptureData inst body => execDecCaptureDataUnder c inst body s
  | .decDrivingCommand inst body => execDecDrivingCommandUnder c inst body s
  | .decCaptureCommand inst body => execDecCaptureCommandUnder c inst body s
  | .decStatusData inst body => execDecStatusDataUnder c inst body s
  | .decModes inst body => execDecModesUnder c inst body s
  | .decRobotCommand inst body => execDecRobotCommandUnder c inst body s
  | .decWave inst body => execDecWaveUnder c inst body s
  | .decPidParams inst body => execDecPidParamsUnder c inst body s
  | .decTaskTimingResult inst body => execDecTaskTimingResultUnder c inst body s
  | .decUnknown t inst => execDecUnknownUnder c t inst s
  -- format MSG (R172 to R183)
  | .encAssertMessage m => execEncAssertMessageUnder c m s
  | .encDebugMessage m => execEncDebugMessageUnder c m s
  | .encCaptureData m => execEncCaptureDataUnder c m s
  | .encDrivingCommand m => execEncDrivingCommandUnder c m s
  | .encCaptureCommand m => execEncCaptureCommandUnder c m s
  | .encStatusData m => execEncStatusDataUnder c m s
  | .encModes m => execEncModesUnder c m s
  | .encRobotCommand m => execEncRobotCommandUnder c m s
  | .encWave m => execEncWaveUnder c m s
  | .encPidParams m => execEncPidParamsUnder c m s
  | .encRequest m => execEncRequestUnder c m s
  | .encTaskTimingResult m => execEncTaskTimingResultUnder c m s
  -- format PORT (R110, R190, R200 to R205)
  | .reset => execReset s
  | .connect openOk => execConnect openOk s
  | .disconnect => execDisconnect s
  | .txSend msg inst => execTxSendUnder c msg inst s
  | .statRead reader lag => execStatRead reader lag s
  | .crc16 bytes length initial => execCrc16Under c bytes length initial s

end Sys2Proof.Machine
end

