-- ==== Sys2Proof/Machine/Stream.lean ====
section
/-! DEFINITION. RX.BYTE as one operation, and the pseudo-operations over streams of bytes
(spec/41_frame_parser.md R120; spec/20_memory.md R62; spec/30_encoding.md R94, R95); and the
placing of an operation at its port. -/

namespace Sys2Proof.Machine

/-- RX.BYTE(b): the arm that the parser's state and the byte select (R120, R92). -/
def rxByteUnder (c : Cfg) (b : Byte) (s : State) : Host.Outcome State Fault Refusal :=
  perform c (decodeFsm s.state b) s

/-- The same under the machine's configuration. -/
def rxByte (b : Byte) (s : State) : Host.Outcome State Fault Refusal :=
  exec (decodeFsm s.state b) s

/-- RX.CHUNK(bs): one RX.BYTE per byte, in order (R62). -/
def rxChunk : List Byte → State → Host.Outcome State Fault Refusal
  | [], s => .next s
  | b :: bs, s =>
    match rxByte b s with
    | .next t => rxChunk bs t
    | .fault r => .fault r
    | .refused r => .refused r

/-- The frame literal `FRAME(type_id, instance, body)` (R94). -/
def frameLiteral (t : Byte) (inst : U16) (body : List Byte) : List Byte := buildFrame cfg t inst body

/-- `s` with `op` as the operation performed next. An `FSM` key holds the parser's state code; and
an arm of the parser, or a decoder, is selected only while connected (R120, R232). -/
def State.placeOp (s : State) (st : Option Nat) (op : Op) : State :=
  let t := (s.setState (st.getD s.state)).startOp op
  match op with
  | .rxByte _ => t.setConnected true
  | .frame _ => t.setConnected true
  | .encode _ _ => t
  | .command _ _ => t

end Sys2Proof.Machine
end

