-- ==== Sys2Proof/Machine/Step.lean ====
section
/-! DEFINITION. One step of the CORE: the next operation of the total order (spec/20_memory.md R58),
decoded by its key and performed whole (R57). With none started the CORE is idle and keeps all state
(spec/60_exceptions.md R239). The configuration is a parameter (spec/10_state.md R32): `stepUnder c`
is the step for any, `step` the host's, at `cfg`. -/

namespace Sys2Proof.Machine

/-- One operation, under a configuration. -/
def stepUnder (c : Cfg) (s : State) : Host.Outcome State Fault Refusal :=
  match s.fetch with
  | none => .next s
  | some (op, s') =>
    match decodeUnder c.idTable ⟨s.state, op⟩ with
    | .ok i => perform c i s'
    | .error e => .refused (.undecodable e)

/-- One operation, under the machine's configuration (`step_eq_stepUnder` of Laws/Exec.lean: this is
`stepUnder cfg`). -/
def step (s : State) : Host.Outcome State Fault Refusal :=
  match s.fetch with
  | none => .next s
  | some (op, s') =>
    match decode ⟨s.state, op⟩ with
    | .ok i => exec i s'
    | .error e => .refused (.undecodable e)

/-- `s` with the operation of a table word, its operands zero, as the one the next step performs
(log entries 5 and 6). -/
def State.withFetchWord (s : State) (nbits w : Nat) : State :=
  s.placeOp (layoutWord nbits w).1 (layoutWord nbits w).2

end Sys2Proof.Machine
end

