-- ==== Sys2Proof/Safety.lean ====
section
/-! DEFINITION. The invariants of the CORE's states (spec/10_state.md R28, R29, R34; spec/44_control.md
R206) and what a safe state is, in the terms claims use. -/

namespace Sys2Proof.Machine

/-- R34 (a) to (h): the parser's registers agree with its state, and with the bytes stored. -/
abbrev State.ParserInv (s : State) : Prop :=
  s.state ≤ 7 ∧
  (s.state = 0 → s.cursor.toNat = 0 ∧ s.len.toNat = 0) ∧
  (1 ≤ s.state → s.state ≤ 4 → s.cursor.toNat = s.state) ∧
  (s.state = 5 → 1 ≤ s.len.toNat ∧ 5 ≤ s.cursor.toNat ∧ s.cursor.toNat < 5 + s.len.toNat) ∧
  (s.state = 6 → s.cursor.toNat = 5 + s.len.toNat) ∧
  (s.state = 7 → s.cursor.toNat = 6 + s.len.toNat) ∧
  (s.state ≠ 0 → s.buf.read 0 = Config.startByte) ∧
  (5 ≤ s.state → s.buf.read 4 = s.len) ∧
  s.cursor.toNat ≤ 261

/-- R34 (i), R29 (c): not connected, the parser is idle and the counters and their history are empty. -/
abbrev State.LinkInv (s : State) : Prop :=
  s.connected = false →
    s.state = 0 ∧ s.cursor = 0 ∧ s.len = 0 ∧ s.stats = Stats.zero ∧ s.hist = []

/-- Each counter of `a` is at most that of `b`. -/
def Stats.le (a b : Stats) : Bool :=
  a.bytesSent ≤ b.bytesSent && a.msgsSent ≤ b.msgsSent && a.bytesRcvd ≤ b.bytesRcvd &&
  a.msgsRcvd ≤ b.msgsRcvd && a.badCrc ≤ b.badCrc && a.dropped ≤ b.dropped

/-- Each counter is a number of `CNT_W` bits (R28, R29 (e)). -/
def Stats.fits (c : Cfg) (v : Stats) : Bool :=
  v.bytesSent < 2 ^ c.cntW && v.msgsSent < 2 ^ c.cntW && v.bytesRcvd < 2 ^ c.cntW &&
  v.msgsRcvd < 2 ^ c.cntW && v.badCrc < 2 ^ c.cntW && v.dropped < 2 ^ c.cntW

/-- One point of the operation order is not after another. -/
def Past.le (older newer : Past) : Bool :=
  older.stats.le newer.stats && decide (older.frames ≤ newer.frames)

/-- R29 (a): since the last zeroing no counter has decreased, nor has the count of frames; and every
reader's latest STAT.READ lies inside that history (R206). -/
abbrev State.HistInv (s : State) : Prop :=
  (s.now :: s.hist).Pairwise (fun newer older => older.le newer = true) ∧
  ∀ m ∈ s.marks, m.2 ≤ s.hist.length

/-- The registers of parametric width hold numbers of that width: `state` of `STATE_W` bits, the
counters of `CNT_W` (R7, R21, R28). -/
abbrev State.WidthInv (c : Cfg) (s : State) : Prop := s.state < 2 ^ c.stateW ∧ s.stats.fits c = true

/-- The invariant every step under the configuration `c` keeps. -/
abbrev State.InvUnder (c : Cfg) (s : State) : Prop :=
  s.buf.wf = true ∧ s.ParserInv ∧ s.LinkInv ∧ s.HistInv ∧ s.WidthInv c

/-- The invariant every step keeps. -/
abbrev State.Inv (s : State) : Prop := s.InvUnder cfg

/-- A safe state: the next step does not fault (R226: no operation of the CORE ends in a fatal error). -/
def State.Safe (s : State) : Prop := ∀ r, step s ≠ .fault r

end Sys2Proof.Machine
end

