-- ==== Sys2Proof/WellFormed.lean ====
section
/-! DEFINITION. Which instructions the spec allows (spec/30_encoding.md R92; spec/40_crc.md R110). -/

namespace Sys2Proof

/-- A body has at most `MAX_BODY` bytes (R70, R140). -/
def bodyFits (body : List Byte) : Bool := body.length ≤ Config.maxBody

/-- An instruction is well-formed when its operands are among those its row is selected with:
RX.NOISE with a byte other than the marker (R122), RX.BADSTATE in an unexpected state, of `STATE_W`
bits (R21, R129), a decoder with a body of at most 255 bytes (R140), DEC.UNKNOWN with an id that has
no decoder (R143), CRC16 with a length within its bytes (R110). Every message record is one TX.SEND
and ENC take: a value that does not fit is their EncodingError (R171), not an ill-formed operand. -/
def Instr.wellFormedUnder (c : Cfg) : Instr → Bool
  | .rxWait => true
  | .rxNoise b => b != 0xFE
  | .rxType _ => true
  | .rxInstlo _ => true
  | .rxInsthi _ => true
  | .rxLen _ => true
  | .rxBody _ => true
  | .rxCrclo _ => true
  | .rxCrchi _ => true
  | .rxBadstate st _ => 8 ≤ st && st < 2 ^ c.stateW
  | .decAssertMessage _ body => bodyFits body
  | .decDebugMessage _ body => bodyFits body
  | .decCaptureData _ body => bodyFits body
  | .decDrivingCommand _ body => bodyFits body
  | .decCaptureCommand _ body => bodyFits body
  | .decStatusData _ body => bodyFits body
  | .decModes _ body => bodyFits body
  | .decRobotCommand _ body => bodyFits body
  | .decWave _ body => bodyFits body
  | .decPidParams _ body => bodyFits body
  | .decTaskTimingResult _ body => bodyFits body
  | .decUnknown t _ => !((c.idTable.typeOf t).any MsgType.hasDec)
  | .encAssertMessage _ => true
  | .encDebugMessage _ => true
  | .encCaptureData _ => true
  | .encDrivingCommand _ => true
  | .encCaptureCommand _ => true
  | .encStatusData _ => true
  | .encModes _ => true
  | .encRobotCommand _ => true
  | .encWave _ => true
  | .encPidParams _ => true
  | .encRequest _ => true
  | .encTaskTimingResult _ => true
  | .reset => true
  | .connect _ => true
  | .disconnect => true
  | .txSend _ _ => true
  | .statRead _ _ => true
  | .crc16 bytes length _ => length ≤ bytes.length

/-- The instructions of the opcode table: the machine's configuration has the canonical id table and
8-bit state codes (R92). -/
def Instr.wellFormed (i : Instr) : Bool := i.wellFormedUnder Machine.cfg

/-- `i` is well-formed. -/
abbrev Instr.WellFormed (i : Instr) : Prop := i.wellFormed = true

end Sys2Proof
end

