-- ==== Sys2Proof/Certificates/Slice0/Obligations.lean ====
section
/-! DEFINITION. The statements for the provers. `Sys2Proof.Claims` holds the vocabulary they share,
written from the spec and not from the model's own operations where the two could differ. Every
statement about a next state gives the whole state, so it is its own frame; the fields `hist`,
`marks`, `frames` and `result` are the model's own (log entries 8 and 9). `exec` and `step` run
under `cfg`, the defaults of R7; what R7 lets vary is stated for every configuration where the
statement takes one (log entry 10). -/

namespace Sys2Proof.Claims

open Sys2Proof.Machine

/-- A u16 on the wire, low byte first (R53). -/
def le16 (x : BitVec 16) : List Byte := [x.extractLsb' 0 8, x.extractLsb' 8 8]

/-- A u32 or f32 on the wire, low byte first (R53). -/
def le32 (x : BitVec 32) : List Byte :=
  [x.extractLsb' 0 8, x.extractLsb' 8 8, x.extractLsb' 16 8, x.extractLsb' 24 8]

/-- This point of the operation order: the counters, and how many CRC-valid frames have arrived (a count
of the model's own, log entry 8). -/
def here (s : State) : Past := ⟨s.stats, s.frames⟩

/-- The counters after a byte was counted (R120). -/
def counted (s : State) : Stats := { s.stats with bytesRcvd := satInc cfg s.stats.bytesRcvd 1 }

/-- `t` is `s` after an arm that stored `b` at index `a` of `buf` and changed nothing else but the
parser's three registers, the byte count and the outcome: every other byte of `buf` reads as before. -/
def Stored (s t : State) (a : Nat) (b : Byte) (cursor : Nat) (st : Nat) (len : Byte) : Prop :=
  (∀ x, t.buf.read x = if x = a then b else s.buf.read x) ∧
  t.cursor.toNat = cursor ∧
  t = { s with buf := t.buf, cursor := t.cursor, state := st, len := len, stats := counted s,
               hist := here s :: s.hist, result := some .accepted }

/-- `s` after a decoder that dispatched `m`: one event on `ev`, no register and no counter. -/
def dispatched (s : State) (t : Byte) (inst : U16) (m : Message) : State :=
  { s with ev := s.ev ++ [.dispatch t inst m], hist := here s :: s.hist,
           result := some (.dispatched t inst m) }

/-- `s` after a decode failure `r`: `dropped` moves and `r` is reported. -/
def failed (s : State) (r : OpResult) : State :=
  { s with ev := s.ev ++ [.report r], hist := here s :: s.hist, result := some r,
           stats := { s.stats with dropped := satInc cfg s.stats.dropped 1 } }

/-- `s` after an encoder that returned a body (R170). -/
def encoded (s : State) (t : Byte) (body : List Byte) : State :=
  { s with result := some (.encoded t body) }

/-- `s` after an operation whose whole effect is its outcome. -/
def answered (s : State) (r : OpResult) : State := { s with result := some r }

/-- The reset values of R37 with `connected` at `c`; the ghost streams are kept. What `buf` holds is
left open: R37 calls it unspecified (that it keeps its bytes is R51's, log entry 1). -/
def restarted (s : State) (buf : Memory) (c : Bool) (r : OpResult) : State :=
  { s with buf := buf, state := 0, cursor := 0, len := 0, connected := c, stats := ⟨0, 0, 0, 0, 0, 0⟩,
           hist := [], marks := [], result := some r }

/-- The byte of `buf` at `x` once RX.CRCHI has stored `b` at `cursor` (R130). -/
def lastStored (s : State) (b : Byte) (x : Nat) : Byte :=
  if x = s.cursor.toNat then b else s.buf.read x

/-- `buf[a .. a+n)` once RX.CRCHI has stored its byte. -/
def lastSlice (s : State) (b : Byte) (a n : Nat) : List Byte :=
  (List.range n).map fun i => lastStored s b (a + i)

/-- VERIFY's computed CRC equals the received one (R131). -/
def CrcMatches (s : State) (b : Byte) : Prop :=
  (crc16 cfg (lastSlice s b 0 (5 + s.len.toNat)) (5 + s.len.toNat) 0xFFFF).toNat =
    (lastStored s b (5 + s.len.toNat)).toNat + 256 * (lastStored s b (6 + s.len.toNat)).toNat

/-- The state in which VERIFY hands a CRC-valid frame to the codec (R131). -/
def verified (s : State) (buf : Memory) : State :=
  { s with buf := buf, cursor := s.cursor + 1, hist := here s :: s.hist, frames := s.frames + 1,
           stats := { counted s with msgsRcvd := satInc cfg s.stats.msgsRcvd 1 } }

/-- The instructions of format FSM for a byte and a state code. -/
def fsmArms (st : Nat) (b : Byte) : List Instr :=
  [.rxWait, .rxNoise b, .rxType b, .rxInstlo b, .rxInsthi b, .rxLen b, .rxBody b, .rxCrclo b,
   .rxCrchi b, .rxBadstate st b]

/-- RX.BYTE is one of the ten arms. -/
def isRx (i : Instr) : Prop := ∃ st b, i ∈ fsmArms st b

/-- The decoder's instructions. -/
def isDec (i : Instr) : Prop := ∃ t inst body, i = decodeFrameType t inst body ∨ i = .decUnknown t inst

/-- `i` zeroes the counters in `s`: RESET, DISCONNECT and a CONNECT that succeeds (R29 (b)). -/
def zeroes (i : Instr) (s : State) : Prop :=
  i = .reset ∨ i = .disconnect ∨ (i = .connect true ∧ s.connected = false)

/-- A run of instructions, none of them zeroing, faulting or refused. -/
def RunsUnzeroed : List Instr → State → State → Prop
  | [], s, t => s = t
  | i :: is, s, t => ¬ zeroes i s ∧ ∃ u, exec i s = .next u ∧ RunsUnzeroed is u t

/-- A point whose value of counter `k` a STAT.READ by `reader` may return: it lies between `t0` and
now (R206); and for `msgs_rcvd` every frame whose dispatch the reader has seen is counted there (R60):
the frames are numbered from 1 as they arrive, and `reader.seen` is the number of the newest of those. -/
def Admitted (s : State) (reader : Reader) (k : Fin 6) (p : Past) : Prop :=
  p ∈ (here s :: s.hist).take (s.hist.length - markOf reader.agent s.marks + 1) ∧
  (k = 3 → min reader.seen s.frames ≤ p.frames)

/-- A type's decoder as a function (R147 to R157); Request has none (R158). -/
def decodeBody (c : Cfg) (body : List Byte) : MsgType → Option Message
  | .assertMessage => some (.assertMessage (decodeAssertMessage body))
  | .debugMessage => some (.debugMessage (decodeDebugMessage body))
  | .captureData => some (.captureData (decodeCaptureData body))
  | .drivingCommand => some (.drivingCommand (decodeDrivingCommand body))
  | .captureCommand => some (.captureCommand (decodeCaptureCommand body))
  | .statusData => some (.statusData (decodeStatusData c body))
  | .modes => some (.modes (decodeModes body))
  | .robotCommand => some (.robotCommand (decodeRobotCommand body))
  | .wave => some (.wave (decodeWave c body))
  | .pidParams => some (.pidParams (decodePidParams body))
  | .request => none
  | .taskTimingResult => some (.taskTimingResult (decodeTaskTimingResult c body))

/-- `char[n]` in its zero-padded form (R160). -/
def padded (n : Nat) (s : List Byte) : List Byte := s ++ List.replicate (n - s.length) 0

/-- The derived fields of StatusData by role (R152). -/
def derivedOf (c : Cfg) (m : StatusData) : StatusDerived :=
  { rollDeg := c.num.deg m.roll
    pitchDeg := c.num.deg m.pitch
    yawDeg := c.num.deg m.yaw
    telem := List.zipWith (fun e x =>
      match e.2 with
      | Role.angVel => TelemDerived.rpm (c.num.rpm x)
      | Role.pwm => TelemDerived.pctVolt (c.num.pct x) (c.num.volt m.battery x)
      | Role.plain => TelemDerived.none) c.statusTelem m.telem }

/-- A message as its decoder gives it back (R160): raw fields as they are, text zero-padded, derived
fields computed. -/
def received (c : Cfg) : Message → Message
  | .assertMessage m => .assertMessage { m with message := padded 200 m.message }
  | .debugMessage m => .debugMessage { m with message := padded 200 m.message }
  | .statusData m => .statusData { m with derived := some (derivedOf c m) }
  | .taskTimingResult m => .taskTimingResult { m with taskName := padded 32 m.taskName }
  | .captureData m => .captureData m
  | .drivingCommand m => .drivingCommand m
  | .captureCommand m => .captureCommand m
  | .modes m => .modes m
  | .robotCommand m => .robotCommand m
  | .wave m => .wave m
  | .pidParams m => .pidParams m
  | .request m => .request m

/-- The fields of a StatusData that can fail, in layout order, and whether each fits (R84, R171). -/
def statusChecks (c : Cfg) (d : StatusData) : List (Field × Bool) :=
  let byte (v : Int) : Bool := decide (0 ≤ v ∧ v < 256)
  [(.mainMode, byte d.mainMode), (.subMode, byte d.subMode), (.state, byte d.state), (.pad, byte d.pad),
    (.telem, d.telem.length == c.statusTelem.length)]

/-- A wire frame (R70): marker, type id, instance, length, body, CRC, low bytes first. -/
def wire (c : Cfg) (t : Byte) (inst : U16) (body : List Byte) : List Byte :=
  let head := [0xFE, t] ++ le16 inst ++ [BitVec.ofNat 8 body.length] ++ body
  head ++ le16 (crc16 c head (5 + body.length) 0xFFFF)

/-- RX.BYTE of each byte, in order, takes `s` to `t`. -/
def FedByBytes : List Byte → State → State → Prop
  | [], s, t => s = t
  | b :: bs, s, t => ∃ u, rxByte b s = .next u ∧ FedByBytes bs u t

/-- RX.CHUNK of each chunk, in order, takes `s` to `t`. -/
def FedInChunks : List (List Byte) → State → State → Prop
  | [], s, t => s = t
  | bs :: rest, s, t => ∃ u, rxChunk bs s = .next u ∧ FedInChunks rest u t

/-- Some decoder exists for the id (R75). -/
def Decodable (t : Byte) : Prop := t.toNat ∈ [0, 1, 2, 3, 4, 5, 14, 15, 17, 18, 20]

/-- The value of a finite number; none for NaN and infinities. -/
def ratOf : FVal → Option ℚ
  | .nan => none
  | .inf _ => none
  | .fin sg m e => some ((if sg then -1 else 1) * (m : ℚ) * (2 : ℚ) ^ e)

/-- The architectural state of R20 and the ghost streams, without the model's own fields. -/
def SameCore (s t : State) : Prop :=
  s.state = t.state ∧ s.cursor = t.cursor ∧ s.len = t.len ∧ s.buf = t.buf ∧
  s.connected = t.connected ∧ s.stats = t.stats ∧ s.tx = t.tx ∧ s.ev = t.ev

/-- The six counters of a record, by index (R28). -/
def counter (v : Stats) : Fin 6 → Nat
  | 0 => v.bytesSent
  | 1 => v.msgsSent
  | 2 => v.bytesRcvd
  | 3 => v.msgsRcvd
  | 4 => v.badCrc
  | 5 => v.dropped

/-- R28's table: the instruction `i`, which took `s` to `t`, increments counter `k` by `n`. -/
def Increments (i : Instr) (s t : State) (k : Fin 6) (n : Nat) : Prop :=
  match k with
  | 0 => ∃ m inst f, i = .txSend m inst ∧ t.result = some (.sent f) ∧ n = f.length
  | 1 => ∃ m inst f, i = .txSend m inst ∧ t.result = some (.sent f) ∧ n = 1
  | 2 => isRx i ∧ s.connected = true ∧ n = 1
  | 3 => (∃ b, i = .rxCrchi b) ∧ s.connected = true ∧ t.result ≠ some .badCrc ∧ n = 1
  | 4 => (∃ b, i = .rxCrchi b) ∧ t.result = some .badCrc ∧ n = 1
  | 5 => ((∃ b, i = .rxCrchi b) ∨ isDec i) ∧ n = 1 ∧ ∃ ty inst,
      t.result = some (.unknownType ty inst) ∨ ∃ have_ need, t.result = some (.decodingError ty inst have_ need)

/-- One shift of the CRC register (R111). -/
def shiftOnce (poly c : BitVec 16) : BitVec 16 :=
  if c.getLsbD 15 then (c <<< 1) ^^^ poly else c <<< 1

/-- What one byte does to the CRC register (R111): reflected where `CRC_REFLECT`, xored in at the top,
then eight shifts. -/
def byteIn (c : Cfg) (r : BitVec 16) (b : Byte) : BitVec 16 :=
  (shiftOnce c.crcPoly)^[8] (r ^^^ ((if c.crcReflect then b.reverse else b).setWidth 16 <<< 8))

/-- What R111 returns of the register: reflected where `CRC_REFLECT`, then xored with `CRC_XOROUT`. -/
def returned (c : Cfg) (r : BitVec 16) : BitVec 16 :=
  (if c.crcReflect then r.reverse else r) ^^^ c.crcXorout

/-- `y` is the binary64 number nearest to `q`, a tie going to the even pattern. -/
def IsNearest (y : F64) (q : ℚ) : Prop :=
  ∃ v, ratOf (val64 y) = some v ∧ ∀ z w, ratOf (val64 z) = some w →
    |v - q| ≤ |w - q| ∧ (|v - q| = |w - q| → w ≠ v → y.getLsbD 0 = false)

/-- Two byte sequences differ in exactly one bit. -/
def OneBitApart (xs ys : List Byte) : Prop :=
  xs.length = ys.length ∧ ∃ i, i < xs.length ∧ ∃ k < 8,
    ys.getD i 0 = xs.getD i 0 ^^^ BitVec.twoPow 8 k ∧ ∀ j, j ≠ i → ys.getD j 0 = xs.getD j 0

/-- The tagged form of the parser's state (R35). -/
inductive Tagged
  | waitForStart
  | readHeader (progress : Nat)
  | readBody (remaining : Nat)
  | readCrc (half : Nat)
  deriving DecidableEq, Repr

/-- R35's mapping from the eight-state form. -/
def tagOf (s : State) : Tagged :=
  match s.state with
  | 0 => .waitForStart
  | 5 => .readBody (5 + s.len.toNat - s.cursor.toNat)
  | 6 => .readCrc 0
  | 7 => .readCrc 1
  | p => .readHeader p

/-- R35's transition logic, a pure function of the tagged state and the byte. -/
def tagNext (q : Tagged) (b : Byte) : Tagged :=
  match q with
  | .waitForStart => if b = 0xFE then .readHeader 1 else .waitForStart
  | .readHeader p =>
    if p < 4 then .readHeader (p + 1)
    else if b = 0 then .readCrc 0 else .readBody b.toNat
  | .readBody r => if r = 1 then .readCrc 0 else .readBody (r - 1)
  | .readCrc h => if h = 0 then .readCrc 1 else .waitForStart

end Sys2Proof.Claims

open Sys2Proof Sys2Proof.Machine Sys2Proof.Claims

/-! ## Encoding -/

/-- Decoding the word of a well-formed instruction gives it back, for every constructor and every
operand. -/
def Obligations.DecodeOfEncodeIsIdentity : Prop :=
  ∀ i : Instr, i.WellFormed → decode (encode i) = .ok i

/-- Whatever the decoder reads, its mnemonic is that of the row R92 selects for the key: of the rows
of the key's format that match, the one with more bits fixed. The key has eight bits for the state
code, `STATE_W` = 8 (R92). -/
def Obligations.DecoderFollowsOpcodeTable : Prop :=
  ∀ (w : OpWord) (i : Instr), w.st < 2 ^ 8 → decode w = .ok i →
    (selectRow w.fmt w.key).map (·.mnemonic) = some i.mnemonic

/-- Words written out from R92, R93 and the rules' example frames decode to the instructions they
stand for, and the words no row covers are rejected by name. -/
def Obligations.SpecWordsDecode : Prop :=
  decode ⟨0, .rxByte 0xFE⟩ = .ok .rxWait ∧
  decode ⟨0, .rxByte 0x11⟩ = .ok (.rxNoise 0x11) ∧
  decode ⟨1, .rxByte 0xFE⟩ = .ok (.rxType 0xFE) ∧
  decode ⟨7, .rxByte 0x3F⟩ = .ok (.rxCrchi 0x3F) ∧
  decode ⟨9, .rxByte 0x55⟩ = .ok (.rxBadstate 9 0x55) ∧
  decode ⟨0, .frame [0xFE, 0x0E, 0x00, 0x00, 0x03, 0x01, 0x02, 0x03]⟩ = .ok (.decModes 0 [1, 2, 3]) ∧
  decode ⟨0, .frame [0xFE, 0x0F, 0x01, 0x00, 0x01, 0x00]⟩ = .ok (.decRobotCommand 1 [0]) ∧
  decode ⟨0, .frame [0xFE, 0x13, 0x00, 0x00, 0x01, 0x0F]⟩ = .ok (.decUnknown 19 0) ∧
  decode ⟨0, .frame [0xFE, 0x07, 0xFF, 0xFF, 0x00]⟩ = .ok (.decUnknown 7 0xFFFF) ∧
  decode ⟨0, .encode 0x13 (.request ⟨5⟩)⟩ = .ok (.encRequest ⟨5⟩) ∧
  decode ⟨0, .command 0 Args.zero⟩ = .ok .reset ∧
  decode ⟨0, .command 1 Args.zero⟩ = .ok (.connect false) ∧
  decode ⟨0, .command 4 Args.zero⟩ = .ok (.statRead ⟨0, 0⟩ ⟨0, 0, 0, 0, 0, 0⟩) ∧
  decode ⟨0, .command 6 Args.zero⟩ = .error .unassignedCommand ∧
  decode ⟨0, .command 7 Args.zero⟩ = .error .unassignedCommand ∧
  decode ⟨0, .encode 6 (.request ⟨5⟩)⟩ = .error .unassignedTypeId ∧
  decode ⟨0, .frame [0x7E, 0x0F, 0x01, 0x00, 0x01, 0x00]⟩ = .error .badStartByte

/-- A step takes the first operation of the total order (R57, R58; that the operations wait in a list
of State is the model's choice, log entry 12), decodes it with the parser's state, and is exec of it
in the state without it. The other two clauses are the model's choices: an operation no row covers is
refused, with no next state (log entry 14, DEDUCED); with none waiting the CORE is idle and the step
answers the same state (log entry 5, DESIGN CHOICE, from R239's "between operations it is idle and
keeps all state"). -/
def Obligations.StepRunsTheDecodedOperation : Prop :=
  (∀ (s : State) (op : Op) (rest : List Op) (i : Instr), s.pending = op :: rest →
    decode ⟨s.state, op⟩ = .ok i → step s = exec i { s with pending := rest }) ∧
  (∀ (s : State) (op : Op) (rest : List Op) (e : DecodeError), s.pending = op :: rest →
    decode ⟨s.state, op⟩ = .error e → step s = .refused (.undecodable e)) ∧
  (∀ s : State, s.pending = [] → step s = .next s)

/-! ## Reset and the command port -/

/-- State.reset is R37's first column, with the ghost streams empty and no operation started, and it
meets the invariant. -/
def Obligations.ResetStateIsIdleAndMeetsTheInvariant : Prop :=
  State.reset.state = 0 ∧ State.reset.cursor = 0 ∧ State.reset.len = 0 ∧
  State.reset.connected = false ∧ State.reset.stats = ⟨0, 0, 0, 0, 0, 0⟩ ∧
  State.reset.tx = [] ∧ State.reset.ev = [] ∧ State.reset.pending = [] ∧ State.reset.Inv

/-- RESET, command code 0, from any state (R200): R37's reset values, outcome Done; it differs from
DISCONNECT in the outcome only; and a STAT.READ after it returns six zeros, for every reader and lag. -/
def Obligations.ResetZeroesEverything : Prop :=
  (∀ (st : Nat) (a : Args), decode ⟨st, .command 0 a⟩ = .ok .reset) ∧
  ∀ (s : State) (reader : Reader) (lag : Lag), ∃ t u,
    exec .reset s = .next t ∧ t = restarted s t.buf false .done ∧
    exec .disconnect s = .next { t with result := some (.closed s.connected) } ∧
    exec (.statRead reader lag) t = .next u ∧ u.result = some (.stats ⟨0, 0, 0, 0, 0, 0⟩)

/-- CONNECT, command code 1 with the operand `open_ok` (R201): refused with nothing changed while
connected, whatever `open_ok`; refused with nothing changed when the device does not open; else a new
parser, zero counters and `connected`; and R201's example. -/
def Obligations.ConnectGivesFreshParser : Prop :=
  (∀ (st : Nat) (a : Args), decode ⟨st, .command 1 a⟩ = .ok (.connect a.openOk)) ∧
  (∀ (ok : Bool) (s : State), s.connected = true →
    exec (.connect ok) s = .next (answered s .alreadyConnected)) ∧
  (∀ s : State, s.connected = false →
    exec (.connect false) s = .next (answered s .connectionFailure)) ∧
  (∀ s : State, s.connected = false →
    ∃ t, exec (.connect true) s = .next t ∧ t = restarted s t.buf true .connected) ∧
  (∀ s : State, ∃ t u v, exec .reset s = .next t ∧ t.result = some .done ∧
    exec (.connect true) t = .next u ∧ u.result = some .connected ∧
    exec (.connect true) u = .next v ∧ v.result = some .alreadyConnected)

/-- DISCONNECT, command code 2 (R203): from any state the parser stopped, counters zero, not connected; it returns
whether a connection was closed, and a second one closes nothing; no partial frame is dispatched;
and R203's example: connect, `FE 0F 01`, disconnect twice. -/
def Obligations.DisconnectAbandonsTheFrame : Prop :=
  (∀ (st : Nat) (a : Args), decode ⟨st, .command 2 a⟩ = .ok .disconnect) ∧
  (∀ s : State, ∃ t u, exec .disconnect s = .next t ∧
    t = restarted s t.buf false (.closed s.connected) ∧
    exec .disconnect t = .next u ∧ u = restarted s u.buf false (.closed false)) ∧
  (∀ s : State, s.connected = false → ∃ t a b u v w,
    exec (.connect true) s = .next t ∧ t.result = some .connected ∧
    rxByte 0xFE t = .next a ∧ a.result = some .accepted ∧
    rxByte 0x0F a = .next b ∧ b.result = some .accepted ∧
    rxByte 0x01 b = .next u ∧ u.result = some .accepted ∧ u.state = 3 ∧
    exec .disconnect u = .next v ∧ v.result = some (.closed true) ∧ v.ev = s.ev ∧
    exec .disconnect v = .next w ∧ w.result = some (.closed false) ∧
    w.state = 0 ∧ w.stats = ⟨0, 0, 0, 0, 0, 0⟩)

/-- STAT.READ always completes and changes nothing but its agent's mark and the outcome; every value
it returns is one the counter held between the reader's window start and now (R206), a `msgs_rcvd`
one that counts every frame whose dispatch the reader has seen (R60); each such value is returned
under some lag, so that no read R206 and R60 allow is left out, and with no lag the current values
are. How the window, the frames seen and the lag are held is the model's (log entry 8). -/
def Obligations.StatReadReturnsExactlyTheAdmittedValues : Prop :=
  (∀ (s : State) (reader : Reader) (lag : Lag), ∃ v t,
    exec (.statRead reader lag) s = .next t ∧
    t = { s with marks := t.marks, result := some (.stats v) } ∧
    markOf reader.agent t.marks = s.hist.length ∧
    (∀ r, r ≠ reader.agent → markOf r t.marks = markOf r s.marks) ∧
    (∀ k, ∃ p, Admitted s reader k p ∧ counter v k = counter p.stats k) ∧
    (lag = ⟨0, 0, 0, 0, 0, 0⟩ → v = s.stats)) ∧
  (∀ (s : State) (reader : Reader) (pick : Fin 6 → Past), (∀ k, Admitted s reader k (pick k)) →
    ∃ lag t v, exec (.statRead reader lag) s = .next t ∧ t.result = some (.stats v) ∧
      ∀ k, counter v k = counter (pick k).stats k)

/-- For one reader no value goes backwards between zeroings (R206): two STAT.READs by one agent, with
any operations between them that zero nothing, a refused CONNECT among them. And a reader that has
seen the dispatch of a frame reads, as long as nothing is zeroed, a `msgs_rcvd` that counts it
(R60). -/
def Obligations.StatReadNeverGoesBackwards : Prop :=
  (∀ (s t u w : State) (r₁ r₂ : Reader) (l₁ l₂ : Lag) (is : List Instr) (v₁ v₂ : Stats),
    s.HistInv → s.stats.fits cfg = true → r₁.agent = r₂.agent →
    exec (.statRead r₁ l₁) s = .next t → t.result = some (.stats v₁) → RunsUnzeroed is t u →
    exec (.statRead r₂ l₂) u = .next w → w.result = some (.stats v₂) →
    ∀ k, counter v₁ k ≤ counter v₂ k) ∧
  (∀ (s t u w : State) (b : Byte) (ty : Byte) (inst : U16) (m : Message) (reader : Reader) (lag : Lag)
      (is : List Instr) (v : Stats),
    s.HistInv → s.stats.fits cfg = true → exec (.rxCrchi b) s = .next t →
    t.result = some (.dispatched ty inst m) → RunsUnzeroed is t u → t.frames ≤ reader.seen →
    exec (.statRead reader lag) u = .next w → w.result = some (.stats v) →
    t.stats.msgsRcvd ≤ v.msgsRcvd)

/-- CRC16 at the command port (R110): its value within its domain, refused outside; no state read or
written. -/
def Obligations.CrcCommandReturnsTheCrc : Prop :=
  ∀ (bytes : List Byte) (length : Nat) (initial : BitVec 16) (s : State),
    (length ≤ bytes.length →
      exec (.crc16 bytes length initial) s =
        .next (answered s (.crc (crc16 cfg (bytes.take length) length initial)))) ∧
    (bytes.length < length → exec (.crc16 bytes length initial) s = .refused .crcLengthBeyondBytes)

/-! ## The CRC, for every parameter set -/

/-- R111 for every parameter set: the bytes below `length` enter the register one after the other,
each as `byteIn` says, and the register is returned reflected and xored where the parameters say so;
R116 (a): with length 0 the result is the initial value, reflected and xored likewise; (b): bytes
beyond `length` are not read; (c): zeros leave a zero register; and R118's first byte. -/
def Obligations.CrcCornerCases : Prop :=
  (∀ (c : Cfg) (bytes : List Byte) (length : Nat) (i : BitVec 16), length ≤ bytes.length →
    crc16 c bytes length i = returned c ((bytes.take length).foldl (byteIn c) i)) ∧
  (∀ (c : Cfg) (b : Byte) (i : BitVec 16), crc16 c [b] 1 i = returned c (byteIn c i b)) ∧
  (∀ (c : Cfg) (bytes : List Byte) (i : BitVec 16), crc16 c bytes 0 i = returned c i) ∧
  (∀ (c : Cfg) (bytes more : List Byte) (i : BitVec 16),
    crc16 c (bytes ++ more) bytes.length i = crc16 c bytes bytes.length i) ∧
  (∀ (c : Cfg) (n : Nat), c.crcReflect = false → c.crcXorout = 0 →
    crc16 c (List.replicate n 0) n 0 = 0) ∧
  crc16 cfg [0xFE] 1 0xFFFF = 0xEF21

/-- Chaining (R115): with no reflection and no final XOR a CRC is continued from the CRC of its
first part; for every parameter set the law holds for the register, and not for the returned value;
and R115's worked example. -/
def Obligations.CrcChains : Prop :=
  (∀ (c : Cfg) (bytes : List Byte) (k length : Nat) (i : BitVec 16), c.crcReflect = false →
    c.crcXorout = 0 → k ≤ length → length ≤ bytes.length →
    crc16 c bytes length i = crc16 c (bytes.drop k) (length - k) (crc16 c bytes k i)) ∧
  (∀ (c : Cfg) (xs ys : List Byte) (i : BitVec 16),
    crcReg c i (xs ++ ys) = crcReg c (crcReg c i xs) ys) ∧
  (∃ (c : Cfg) (bytes : List Byte) (k length : Nat) (i : BitVec 16), k ≤ length ∧
    length ≤ bytes.length ∧
    crc16 c bytes length i ≠ crc16 c (bytes.drop k) (length - k) (crc16 c bytes k i)) ∧
  crc16 cfg [0x31, 0x32, 0x33, 0x34] 4 0xFFFF = 0x5349 ∧
  crc16 cfg [0x35, 0x36, 0x37, 0x38, 0x39] 5 0x5349 = 0x29B1

/-- The byte-at-a-time table form (R112) is the same function, for every polynomial: one step
`c <- (c << 8) xor T[(c >> 8) xor b]` with `T[k] = CRC16([k], 1, 0)`. -/
def Obligations.CrcTableFormAgrees : Prop :=
  ∀ (c : Cfg) (bytes : List Byte) (i : BitVec 16), c.crcReflect = false → c.crcXorout = 0 →
    crc16 c bytes bytes.length i =
      bytes.foldl (fun (r : BitVec 16) (b : Byte) =>
        (r <<< 8) ^^^ crc16 c [r.extractLsb' 8 8 ^^^ b] 1 0) i

/-- A single flipped bit anywhere in the covered bytes changes the CRC, for every parameter set
whose polynomial has the constant term (R8, R117). -/
def Obligations.CrcDetectsEverySingleBitFlip : Prop :=
  ∀ (c : Cfg) (xs ys : List Byte) (i : BitVec 16), c.crcPoly.getLsbD 0 = true →
    OneBitApart xs ys → crc16 c xs xs.length i ≠ crc16 c ys ys.length i

/-! ## The frame parser -/

/-- A byte that arrives while not connected changes nothing but the outcome, in every arm of RX.BYTE
(R120); and the model's choice for a decoder started alone while not connected, which R140 does not
guard and R232 says does not arise (log entry 7): ignored in the same way. -/
def Obligations.InputIgnoredWhileNotConnected : Prop :=
  ∀ (i : Instr) (s : State), isRx i ∨ isDec i → s.connected = false →
    exec i s = .next (answered s .ignored)

/-- RX.WAIT, RX.TYPE, RX.INSTLO, RX.INSTHI and RX.LEN (R121, R123 to R126): the byte goes to its
index, the parser to its next state, every other byte of `buf` and all else stay; RX.LEN latches the
length, and a zero-length body skips straight to ReadCrcLow. -/
def Obligations.RxHeaderBytesAreStored : Prop :=
  ∀ (b : Byte) (s : State), s.connected = true → s.buf.wf = true →
    (∃ t, exec .rxWait s = .next t ∧ Stored s t 0 0xFE 1 1 s.len) ∧
    (∃ t, exec (.rxType b) s = .next t ∧ Stored s t 1 b 2 2 s.len) ∧
    (∃ t, exec (.rxInstlo b) s = .next t ∧ Stored s t 2 b 3 3 s.len) ∧
    (∃ t, exec (.rxInsthi b) s = .next t ∧ Stored s t 3 b 4 4 s.len) ∧
    (∃ t, exec (.rxLen b) s = .next t ∧ Stored s t 4 b 5 (if b = 0 then 6 else 5) b)

/-- RX.BODY and RX.CRCLO (R127, R128): the byte goes to index `cursor`, which advances by one; the
body ends when the new cursor is `5 + len`. -/
def Obligations.RxBodyAndCrcLowAreStoredAtCursor : Prop :=
  ∀ (b : Byte) (s : State), s.connected = true → s.buf.wf = true → s.cursor.toNat < 262 →
    (∃ t, exec (.rxBody b) s = .next t ∧
      Stored s t s.cursor.toNat b (s.cursor.toNat + 1)
        (if s.cursor.toNat + 1 = 5 + s.len.toNat then 6 else 5) s.len) ∧
    (∃ t, exec (.rxCrclo b) s = .next t ∧
      Stored s t s.cursor.toNat b (s.cursor.toNat + 1) 7 s.len)

/-- The model's stop for an index `buf` does not have (R50; log entry 2): RX.BODY, RX.CRCLO and
RX.CRCHI fault in the states, which no run reaches, whose cursor is 262 or more. -/
def Obligations.RxBeyondBufferFaults : Prop :=
  ∀ (b : Byte) (s : State) (i : Instr), s.connected = true → 262 ≤ s.cursor.toNat →
    i ∈ [Instr.rxBody b, Instr.rxCrclo b, Instr.rxCrchi b] → exec i s = .fault .bufIndexOutOfRange

/-- RX.NOISE (R122): selected in state 0 for every byte but the marker, for which RX.WAIT wins;
nothing is written but the byte count; and any run of bytes but the marker leaves
a waiting parser as it is and adds their number to `bytes_rcvd`, nothing dispatched, no error counted
(R122's example is the run `00 11 FF`; R137 (c)). -/
def Obligations.RxNoiseOnlyCounts : Prop :=
  (∀ b : Byte, decode ⟨0, .rxByte b⟩ = .ok (if b = 0xFE then .rxWait else .rxNoise b)) ∧
  (∀ (b : Byte) (s : State), s.connected = true →
    exec (.rxNoise b) s =
      .next { s with stats := counted s, hist := here s :: s.hist, result := some .noise }) ∧
  (∀ (noise : List Byte) (s : State), s.connected = true → s.state = 0 → 0xFE ∉ noise →
    s.stats.fits cfg = true →
    ∃ t, rxChunk noise s = .next t ∧
      t = { s with stats := { s.stats with bytesRcvd := satInc cfg s.stats.bytesRcvd noise.length },
                   hist := t.hist, result := t.result })

/-- RX.BADSTATE (R129): the parser is reset without a frame, the byte is not looked at. -/
def Obligations.RxBadstateResetsTheParser : Prop :=
  ∀ (st : Nat) (b : Byte) (s : State), s.connected = true →
    exec (.rxBadstate st b) s =
      .next { s with state := 0, cursor := 0, len := 0, stats := counted s,
                     hist := here s :: s.hist, result := some .stateCorrupt }

/-- RX.CRCHI on a frame whose CRC does not match (R130, R131): `bad_crc` moves, nothing is emitted,
the parser is idle. That `buf` keeps its bytes after the frame's end, but for the one at `cursor`, is
the model's choice (log entry 1): R37 and U1 leave them open, and no rule reads them before they are
written. -/
def Obligations.RxBadCrcIsCountedAndSilent : Prop :=
  ∀ (b : Byte) (s : State), s.connected = true → s.buf.wf = true → s.cursor.toNat < 262 →
    ¬ CrcMatches s b → ∃ t, exec (.rxCrchi b) s = .next t ∧
      (∀ x, t.buf.read x = lastStored s b x) ∧
      t = { s with buf := t.buf, state := 0, cursor := 0, len := 0, hist := here s :: s.hist,
                   stats := { counted s with badCrc := satInc cfg s.stats.badCrc 1 },
                   result := some .badCrc }

/-- RX.CRCHI on a frame whose CRC matches (R130, R131 and the row's note): `msgs_rcvd` moves, then
the FRAME-format instruction that the type id selects runs on the frame's instance and body, then
the parser is idle. That `buf` keeps its bytes after the frame's end, but for the one at `cursor`, is
the model's choice (log entry 1): R37 and U1 leave them open, and no rule reads them before they are
written. -/
def Obligations.RxGoodCrcRunsTheSelectedDecoder : Prop :=
  ∀ (b : Byte) (s : State), s.connected = true → s.buf.wf = true → s.cursor.toNat < 262 →
    CrcMatches s b → ∃ t v, exec (.rxCrchi b) s = .next t ∧
      (∀ x, t.buf.read x = lastStored s b x) ∧
      exec (decodeFrameType (lastStored s b 1)
          (lastStored s b 3 ++ lastStored s b 2) (lastSlice s b 5 s.len.toNat)) (verified s t.buf) =
        .next v ∧
      t = { v with state := 0, cursor := 0, len := 0, hist := here s :: s.hist }

/-- After any completed frame the parser's registers are those of the reset state, whatever VERIFY
returned (R132). -/
def Obligations.FrameEndIdlesTheParser : Prop :=
  ∀ (b : Byte) (s t : State), s.connected = true → exec (.rxCrchi b) s = .next t →
    t.state = State.reset.state ∧ t.cursor = State.reset.cursor ∧ t.len = State.reset.len

/-- A completed frame moves exactly one of `msgs_rcvd` and `bad_crc`, `dropped` only with a report,
and puts at most one event on `ev` (R131, R137 (e)); a CRC-valid one, and no other, takes the next
number of the model's count of frames (log entry 8). -/
def Obligations.FrameEndMovesOneCounter : Prop :=
  ∀ (b : Byte) (s t : State), s.connected = true → exec (.rxCrchi b) s = .next t →
    (t.stats = { counted s with badCrc := satInc cfg s.stats.badCrc 1 } ∧ t.ev = s.ev ∧
      t.result = some .badCrc ∧ t.frames = s.frames) ∨
    (∃ ty inst m, t.stats = { counted s with msgsRcvd := satInc cfg s.stats.msgsRcvd 1 } ∧
      t.ev = s.ev ++ [.dispatch ty inst m] ∧ t.result = some (.dispatched ty inst m) ∧
      t.frames = s.frames + 1) ∨
    (∃ r, t.stats = { counted s with msgsRcvd := satInc cfg s.stats.msgsRcvd 1,
                                      dropped := satInc cfg s.stats.dropped 1 } ∧
      t.ev = s.ev ++ [.report r] ∧ t.result = some r ∧ t.frames = s.frames + 1)

/-- Chunk boundaries are not observable (R62): RX.CHUNK is RX.BYTE of each of its bytes in order, for a
chunk of no byte, of one, and of any number; RX.CHUNKs one after the other are the RX.CHUNK of all their
bytes, whatever those are; and an encoded frame fed to an idle connected parser in any split into chunks
ends in one and the same state, with exactly one dispatch of its message. -/
def Obligations.ChunkBoundariesAreNotObservable : Prop :=
  (∀ s : State, rxChunk [] s = .next s) ∧
  (∀ (b : Byte) (s : State), rxChunk [b] s = rxByte b s) ∧
  (∀ (bs : List Byte) (s t : State), rxChunk bs s = .next t ↔ FedByBytes bs s t) ∧
  (∀ (chunks : List (List Byte)) (s t : State),
    FedInChunks chunks s t ↔ rxChunk chunks.flatten s = .next t) ∧
  (∀ (m : Message) (inst : U16) (body : List Byte) (s : State), s.Inv → s.connected = true →
    s.state = 0 → encodeBody cfg m = .ok body → Decodable m.type.id → ∃ t,
      t.ev = s.ev ++ [.dispatch m.type.id inst (received cfg m)] ∧
      t.result = some (.dispatched m.type.id inst (received cfg m)) ∧
      ∀ chunks : List (List Byte), chunks.flatten = wire cfg m.type.id inst body →
        ∀ u, FedInChunks chunks s u ↔ u = t)

/-- Forward progress (R137 (a)): from any state of the invariant inside a frame, at most 261 further
bytes, whatever they are, bring the parser back to WaitForStart. -/
def Obligations.ParserReturnsWithin261Bytes : Prop :=
  ∀ (s : State) (bs : List Byte), s.Inv → s.connected = true → s.state ≠ 0 → bs.length = 261 →
    ∃ k t, 1 ≤ k ∧ k ≤ 261 ∧ rxChunk (bs.take k) s = .next t ∧ t.state = 0

/-- The loopback law (R194): the frame of any message TX.SEND accepts, of a type with a decoder, fed
to an idle connected parser ends in exactly one dispatch of that message, `msgs_rcvd` up by one,
`bad_crc` and `dropped` unchanged, the parser idle. -/
def Obligations.LoopbackDispatchesTheMessage : Prop :=
  ∀ (m : Message) (inst : U16) (body : List Byte) (s : State), s.Inv → s.connected = true →
    s.state = 0 → encodeBody cfg m = .ok body → Decodable m.type.id → ∃ t,
      rxChunk (wire cfg m.type.id inst body) s = .next t ∧
      t.ev = s.ev ++ [.dispatch m.type.id inst (received cfg m)] ∧
      t.result = some (.dispatched m.type.id inst (received cfg m)) ∧
      t.stats.msgsRcvd = satInc cfg s.stats.msgsRcvd 1 ∧ t.stats.badCrc = s.stats.badCrc ∧
      t.stats.dropped = s.stats.dropped ∧ t.state = 0 ∧ t.cursor = 0 ∧ t.len = 0 ∧ t.tx = s.tx

/-- The tagged parser of R35 is the same machine: on every state of the invariant each byte moves the
eight-state form as R35's pure transition function moves its tagged form. -/
def Obligations.TaggedParserIsTheSameMachine : Prop :=
  ∀ (s t : State) (b : Byte), s.Inv → s.connected = true → rxByte b s = .next t →
    tagOf t = tagNext (tagOf s) b

/-- Reads and writes of `buf`: a write to a canonical buffer changes the byte written and no other,
and keeps the form; and equal reads mean equal buffers. -/
def Obligations.BufferReadAfterWrite : Prop :=
  (∀ (m : Memory) (a x : Nat) (b : Byte), m.wf = true → a < 262 →
    (m.write a b).read x = (if x = a then b else m.read x) ∧ (m.write a b).wf = true) ∧
  (∀ m n : Memory, m.wf = true → n.wf = true → (∀ x, m.read x = n.read x) → m = n)

/-! ## The codec: decoding -/

/-- DEC.Modes, DEC.RobotCommand, DEC.DrivingCommand and DEC.CaptureCommand (R150, R151, R153, R154):
the fields at their offsets, low byte first, whatever follows the layout. -/
def Obligations.DecIntegerLayouts : Prop :=
  ∀ (inst : U16) (x y z : BitVec 32) (p q r : Byte) (f : BitVec 16) (rest : List Byte) (s : State),
    s.connected = true →
    exec (.decModes inst (p :: q :: r :: rest)) s =
      .next (dispatched s 14 inst (.modes ⟨p.toNat, q.toNat, r.toNat⟩)) ∧
    exec (.decRobotCommand inst (p :: rest)) s =
      .next (dispatched s 15 inst (.robotCommand ⟨p.toNat⟩)) ∧
    exec (.decDrivingCommand inst (le32 x ++ le32 y ++ le32 z ++ rest)) s =
      .next (dispatched s 3 inst (.drivingCommand ⟨x.toNat, y, z⟩)) ∧
    exec (.decCaptureCommand inst ([p, q] ++ le16 f ++ le32 x ++ le32 y ++ rest)) s =
      .next (dispatched s 4 inst
        (.captureCommand ⟨p.toNat, q.toNat, f.toNat, x.toNat, y.toNat⟩))

/-- DEC.CaptureData and DEC.PidParams (R149, R156). -/
def Obligations.DecFloatLayouts : Prop :=
  ∀ (inst : U16) (a b c d e f g h i : F32) (rest : List Byte) (s : State), s.connected = true →
    exec (.decCaptureData inst (le32 a ++ le32 b ++ le32 c ++ le32 d ++ le32 e ++ le32 f ++ le32 g ++
        le32 h ++ le32 i ++ rest)) s =
      .next (dispatched s 2 inst (.captureData ⟨a, b, c, d, e, f, g, h, i⟩)) ∧
    exec (.decPidParams inst (le32 a ++ le32 b ++ le32 c ++ le32 d ++ le32 e ++ le32 f ++ le32 g ++
        rest)) s =
      .next (dispatched s 18 inst (.pidParams ⟨a, b, c, d, e, f, g⟩))

/-- DEC.AssertMessage and DEC.DebugMessage (R147, R148): all 200 bytes of text, no terminator. -/
def Obligations.DecTextLayouts : Prop :=
  ∀ (inst : U16) (a v : BitVec 32) (text rest : List Byte) (s : State), s.connected = true →
    text.length = 200 →
    exec (.decAssertMessage inst (le32 a ++ text ++ le32 v ++ rest)) s =
      .next (dispatched s 0 inst (.assertMessage ⟨a.toNat, text, v.toNat⟩)) ∧
    exec (.decDebugMessage inst (text ++ le32 v ++ rest)) s =
      .next (dispatched s 1 inst (.debugMessage ⟨text, v.toNat⟩))

/-- DEC.StatusData (R152), for every telemetry list: the raw fields, and the derived ones from the
numerics record by role. -/
def Obligations.DecStatusDataWithDerivedFields : Prop :=
  ∀ (inst : U16) (bat roll pitch yaw : F32) (mm sm st pad : Byte) (telem : List F32)
    (rest : List Byte) (s : State), s.connected = true → telem.length = cfg.statusTelem.length →
    ∃ m : StatusData,
      m.battery = bat ∧ m.roll = roll ∧ m.pitch = pitch ∧ m.yaw = yaw ∧ m.mainMode = mm.toNat ∧
      m.subMode = sm.toNat ∧ m.state = st.toNat ∧ m.pad = pad.toNat ∧ m.telem = telem ∧
      m.derived = some (derivedOf cfg m) ∧
      exec (.decStatusData inst (le32 bat ++ le32 roll ++ le32 pitch ++ le32 yaw ++
          [mm, sm, st, pad] ++ telem.flatMap le32 ++ rest)) s =
        .next (dispatched s 5 inst (.statusData m))

/-- DEC.Wave and DEC.TaskTimingResult (R155, R157), for every WAVE_SIZE and TTR_SIZE. -/
def Obligations.DecRawLayouts : Prop :=
  ∀ (inst : U16) (raw name timing rest : List Byte) (s : State), s.connected = true →
    (raw.length = cfg.waveSize →
      exec (.decWave inst (raw ++ rest)) s = .next (dispatched s 17 inst (.wave ⟨raw⟩))) ∧
    (name.length = 32 → timing.length = cfg.ttrSize - 32 →
      exec (.decTaskTimingResult inst (name ++ timing ++ rest)) s =
        .next (dispatched s 20 inst (.taskTimingResult ⟨name, timing⟩)))

/-- For every type with a decoder: a body shorter than SIZE is a DecodingError, counted in `dropped`,
reported, not dispatched (R142); and the bytes of a body beyond SIZE are ignored (R144). -/
def Obligations.BodyShorterFailsAndTailIsIgnored : Prop :=
  (∀ (ty : MsgType) (inst : U16) (body : List Byte) (s : State), s.connected = true →
    ty ≠ .request → body.length < ty.size cfg →
    exec (decodeFrameType ty.id inst body) s =
      .next (failed s (.decodingError ty.id inst body.length (ty.size cfg)))) ∧
  (∀ (ty : MsgType) (inst : U16) (body tail : List Byte) (s : State), ty.size cfg ≤ body.length →
    exec (decodeFrameType ty.id inst (body ++ tail)) s = exec (decodeFrameType ty.id inst body) s)

/-- A frame whose type id has no decoder, the reserved ids and Request's, is UnknownType whatever
its body (R143, R158). -/
def Obligations.UnknownTypeIsReported : Prop :=
  ∀ (t : Byte) (inst : U16) (body : List Byte) (s : State), s.connected = true →
    exec (.decUnknown t inst) s = .next (failed s (.unknownType t inst)) ∧
    (¬ Decodable t → decodeFrameType t inst body = .decUnknown t inst) ∧
    (Decodable t → decodeFrameType t inst body ≠ .decUnknown t inst)

/-! ## The codec: encoding -/

/-- ENC.Modes, ENC.RobotCommand, ENC.Request, ENC.DrivingCommand and ENC.CaptureCommand (R175, R176,
R178, R179, R182), for every value that fits. -/
def Obligations.EncIntegerLayouts : Prop :=
  ∀ (x y z : BitVec 32) (p q r : Byte) (f : BitVec 16) (s : State),
    exec (.encModes ⟨p.toNat, q.toNat, r.toNat⟩) s = .next (encoded s 14 [p, q, r]) ∧
    exec (.encRobotCommand ⟨p.toNat⟩) s = .next (encoded s 15 [p]) ∧
    exec (.encRequest ⟨p.toNat⟩) s = .next (encoded s 19 [p]) ∧
    exec (.encDrivingCommand ⟨x.toNat, y, z⟩) s = .next (encoded s 3 (le32 x ++ le32 y ++ le32 z)) ∧
    exec (.encCaptureCommand ⟨p.toNat, q.toNat, f.toNat, x.toNat, y.toNat⟩) s =
      .next (encoded s 4 ([p, q] ++ le16 f ++ le32 x ++ le32 y))

/-- ENC.CaptureData and ENC.PidParams (R174, R181). -/
def Obligations.EncFloatLayouts : Prop :=
  ∀ (a b c d e f g h i : F32) (s : State),
    exec (.encCaptureData ⟨a, b, c, d, e, f, g, h, i⟩) s =
      .next (encoded s 2 (le32 a ++ le32 b ++ le32 c ++ le32 d ++ le32 e ++ le32 f ++ le32 g ++
        le32 h ++ le32 i)) ∧
    exec (.encPidParams ⟨a, b, c, d, e, f, g⟩) s =
      .next (encoded s 18 (le32 a ++ le32 b ++ le32 c ++ le32 d ++ le32 e ++ le32 f ++ le32 g))

/-- ENC.AssertMessage, ENC.DebugMessage and ENC.TaskTimingResult (R172, R173, R183): a text that fits
is filled with zeros. -/
def Obligations.EncTextLayouts : Prop :=
  ∀ (a v : BitVec 32) (text name timing : List Byte) (s : State),
    (text.length ≤ 200 →
      exec (.encAssertMessage ⟨a.toNat, text, v.toNat⟩) s =
        .next (encoded s 0 (le32 a ++ padded 200 text ++ le32 v)) ∧
      exec (.encDebugMessage ⟨text, v.toNat⟩) s = .next (encoded s 1 (padded 200 text ++ le32 v))) ∧
    (name.length ≤ 32 → timing.length = cfg.ttrSize - 32 →
      exec (.encTaskTimingResult ⟨name, timing⟩) s = .next (encoded s 20 (padded 32 name ++ timing)))

/-- ENC.StatusData and ENC.Wave (R177, R180): raw fields only; derived fields are ignored. -/
def Obligations.EncStatusAndWaveLayouts : Prop :=
  ∀ (bat roll pitch yaw : F32) (mm sm st pad : Byte) (telem : List F32)
    (derived : Option StatusDerived) (raw : List Byte) (s : State),
    (telem.length = cfg.statusTelem.length →
      exec (.encStatusData ⟨bat, roll, pitch, yaw, mm.toNat, sm.toNat, st.toNat, pad.toNat, telem,
          derived⟩) s =
        .next (encoded s 5 (le32 bat ++ le32 roll ++ le32 pitch ++ le32 yaw ++ [mm, sm, st, pad] ++
          telem.flatMap le32))) ∧
    (raw.length = cfg.waveSize → exec (.encWave ⟨raw⟩) s = .next (encoded s 17 raw))

/-- A value outside its field's width is EncodingError naming the first such field in layout order,
and nothing else happens (R171 to R173, R175 to R179, R182). -/
def Obligations.EncRangeErrorNamesFirstField : Prop :=
  ∀ (a b c d e : Int) (f g h k : F32) (text : List Byte) (telem : List F32)
    (derived : Option StatusDerived) (s : State),
    let fits (n : Nat) (v : Int) : Prop := 0 ≤ v ∧ v < 2 ^ n
    let errs (i : Instr) (field : Field) : Prop := exec i s = .next (answered s (.encodingError field))
    (¬ fits 32 a → errs (.encDrivingCommand ⟨a, f, g⟩) .movementBitmask) ∧
    (¬ fits 8 a → errs (.encRobotCommand ⟨a⟩) .command ∧ errs (.encRequest ⟨a⟩) .requestedTypeId) ∧
    (¬ fits 8 a → errs (.encModes ⟨a, b, c⟩) .mainMode) ∧
    (fits 8 a → ¬ fits 8 b → errs (.encModes ⟨a, b, c⟩) .subMode) ∧
    (fits 8 a → fits 8 b → ¬ fits 8 c → errs (.encModes ⟨a, b, c⟩) .state) ∧
    (¬ fits 8 a → errs (.encCaptureCommand ⟨a, b, c, d, e⟩) .isStart) ∧
    (fits 8 a → ¬ fits 8 b → errs (.encCaptureCommand ⟨a, b, c, d, e⟩) .paused) ∧
    (fits 8 a → fits 8 b → ¬ fits 16 c → errs (.encCaptureCommand ⟨a, b, c, d, e⟩) .freq) ∧
    (fits 8 a → fits 8 b → fits 16 c → ¬ fits 32 d →
      errs (.encCaptureCommand ⟨a, b, c, d, e⟩) .desiredSamples) ∧
    (fits 8 a → fits 8 b → fits 16 c → fits 32 d → ¬ fits 32 e →
      errs (.encCaptureCommand ⟨a, b, c, d, e⟩) .totalSamples) ∧
    (¬ fits 32 a → errs (.encAssertMessage ⟨a, text, b⟩) .action) ∧
    (fits 32 a → text.length ≤ 200 → ¬ fits 32 b → errs (.encAssertMessage ⟨a, text, b⟩) .valid) ∧
    (text.length ≤ 200 → ¬ fits 32 a → errs (.encDebugMessage ⟨text, a⟩) .valid) ∧
    (telem.length = cfg.statusTelem.length →
      let status : Instr := .encStatusData ⟨f, g, h, k, a, b, c, d, telem, derived⟩
      (¬ fits 8 a → errs status .mainMode) ∧
      (fits 8 a → ¬ fits 8 b → errs status .subMode) ∧
      (fits 8 a → fits 8 b → ¬ fits 8 c → errs status .state) ∧
      (fits 8 a → fits 8 b → fits 8 c → ¬ fits 8 d → errs status .pad))

/-- A text too long for its buffer, and raw bytes or telemetry of the wrong length, are
EncodingErrors; nothing is truncated (R171, R172, R173, R177, R180, R183). They name the first failing
field: a text too long comes before a `valid` that does not fit, a task name before the timing.
That ENC.StatusData names the telemetry list where a mode byte does not fit either is the model's choice
(log entry 20, DEDUCED): R177's pseudocode tests the list before it writes any field, and R171 has fields
checked in layout order. For TX.SEND see `TxSendChecksInOrder`. -/
def Obligations.EncLengthErrorNeverTruncates : Prop :=
  ∀ (a : BitVec 32) (v : Int) (text raw timing : List Byte) (m : StatusData) (s : State),
    (200 < text.length →
      exec (.encAssertMessage ⟨a.toNat, text, v⟩) s =
        .next (answered s (.encodingError .message)) ∧
      exec (.encDebugMessage ⟨text, v⟩) s = .next (answered s (.encodingError .message))) ∧
    (32 < text.length →
      exec (.encTaskTimingResult ⟨text, timing⟩) s = .next (answered s (.encodingError .taskName))) ∧
    (text.length ≤ 32 → timing.length ≠ cfg.ttrSize - 32 →
      exec (.encTaskTimingResult ⟨text, timing⟩) s = .next (answered s (.encodingError .timing))) ∧
    (raw.length ≠ cfg.waveSize →
      exec (.encWave ⟨raw⟩) s = .next (answered s (.encodingError .raw))) ∧
    (m.telem.length ≠ cfg.statusTelem.length →
      exec (.encStatusData m) s = .next (answered s (.encodingError .telem)))

/-- Every encoder that does not raise returns exactly SIZE bytes, and SIZE is at most 255, for every
valid configuration (R91, R184). -/
def Obligations.EncodedBodyHasExactlySize : Prop :=
  ∀ (c : Cfg) (m : Message) (body : List Byte), c.Valid → encodeBody c m = .ok body →
    body.length = m.type.size c ∧ m.type.size c ≤ 255

/-- The round-trip law (R160): for every valid configuration, type and message, what the encoder
accepts the decoder gives back, text zero-padded and derived fields computed. -/
def Obligations.DecodeOfEncodedBodyIsTheMessage : Prop :=
  ∀ (c : Cfg) (m : Message) (body : List Byte), c.Valid → encodeBody c m = .ok body →
    m.type ≠ .request → decodeBody c body m.type = some (received c m)

/-- The other direction (R160): encoding what a decoder gives is the body's first SIZE bytes. -/
def Obligations.EncodeOfDecodedBodyIsTheBody : Prop :=
  ∀ (c : Cfg) (ty : MsgType) (body : List Byte) (m : Message), c.Valid → ty.size c ≤ body.length →
    decodeBody c body ty = some m → encodeBody c m = .ok (body.take (ty.size c))

/-! ## Sending -/

/-- TX.SEND of a message that fits (R190, R191): one frame appended to `tx`, `msgs_sent` up by one,
`bytes_sent` by the frame's length, nothing else but the outcome. -/
def Obligations.TxSendEmitsOneFrame : Prop :=
  ∀ (m : Message) (inst : U16) (body : List Byte) (s : State), s.connected = true →
    encodeBody cfg m = .ok body →
    exec (.txSend m inst.toNat) s =
      .next { s with
        tx := s.tx ++ wire cfg m.type.id inst body
        stats := { s.stats with msgsSent := satInc cfg s.stats.msgsSent 1,
                                bytesSent := satInc cfg s.stats.bytesSent (7 + body.length) }
        hist := here s :: s.hist
        result := some (.sent (wire cfg m.type.id inst body)) }

/-- TX.SEND's refusals in the order of R227: not connected, then the body's fields in layout order, then
the instance; in each nothing is emitted and nothing counted (R190, R222). For StatusData the fields that
can fail are the four mode bytes and then the telemetry list. That TX.SEND names a mode byte before the
list, as R227 and D25 order it, though R190 has it call ENC, whose pseudocode for StatusData tests the
list first (R177), is the model's choice (log entry 20, DEDUCED). -/
def Obligations.TxSendChecksInOrder : Prop :=
  ∀ (m : Message) (inst : Int) (s : State),
    (s.connected = false → exec (.txSend m inst) s = .next (answered s .notConnected)) ∧
    (s.connected = true → m.type ≠ .statusData → ∀ f, encodeBody cfg m = .error f →
      exec (.txSend m inst) s = .next (answered s (.encodingError f))) ∧
    (s.connected = true → ∀ (d : StatusData) (pre post : List (Field × Bool)) (f : Field),
      m = .statusData d → statusChecks cfg d = pre ++ (f, false) :: post → (∀ p ∈ pre, p.2 = true) →
      exec (.txSend m inst) s = .next (answered s (.encodingError f))) ∧
    (s.connected = true → ∀ body, encodeBody cfg m = .ok body → ¬ (0 ≤ inst ∧ inst < 65536) →
      exec (.txSend m inst) s = .next (answered s (.encodingError .inst)))

/-! ## Whole-machine rules -/

/-- The invariant R34, with the widths of `state` and of the counters and the history (R7, R28, R29),
is kept by every step from every state that meets it: under every valid configuration, and by the
machine's own step. -/
def Obligations.StepKeepsTheInvariant : Prop :=
  (∀ (c : Cfg) (s t : State), c.Valid → s.InvUnder c → stepUnder c s = .next t → t.InvUnder c) ∧
  (∀ s t : State, s.Inv → step s = .next t → t.Inv)

/-- No step from a state of the invariant faults (R226); and one is refused only where the operation
the CORE performs next is not expressible at a port, its decoding being the error the refusal names,
or is a CRC16 whose length is beyond its bytes (R110). -/
def Obligations.NoStepFaults : Prop :=
  ∀ s : State, s.Inv → s.Safe ∧
    ∀ r, step s = .refused r → ∃ op rest, s.pending = op :: rest ∧
      ((∃ e, decode ⟨s.state, op⟩ = .error e ∧ r = .undecodable e) ∨
        (∃ bytes length initial, decode ⟨s.state, op⟩ = .ok (.crc16 bytes length initial) ∧
          bytes.length < length ∧ r = .crcLengthBeyondBytes))

/-- Every counter is updated only by sat_inc and by being set to zero (R17). In a step that performs
an operation, RESET, DISCONNECT and a successful CONNECT set all six to zero, and no other operation
does; under any other each counter moves by sat_inc with the amount of R28's table exactly where that
table has the operation increment it, and stays as it is otherwise. -/
def Obligations.CountersMoveOnlyBySatInc : Prop :=
  (∀ (c : Cfg) (v k : Nat), satInc c v k = min (v + k) (2 ^ c.cntW - 1)) ∧
  (∀ s t : State, step s = .next t → (s.pending = [] ∧ t = s) ∨
    ∃ op rest i, s.pending = op :: rest ∧ decode ⟨s.state, op⟩ = .ok i ∧
      (zeroes i s → t.stats = ⟨0, 0, 0, 0, 0, 0⟩) ∧
      (¬ zeroes i s → ∀ k : Fin 6,
        (∃ n, Increments i s t k n ∧ counter t.stats k = satInc cfg (counter s.stats k) n) ∨
        ((∀ n, ¬ Increments i s t k n) ∧ counter t.stats k = counter s.stats k)))

/-- Between two zeroings no counter decreases; only RESET, DISCONNECT and a successful CONNECT zero
them (R29 (a), (b)). A counter is a number of `CNT_W` bits (R28): the premise. -/
def Obligations.CountersDecreaseOnlyByZeroing : Prop :=
  ∀ (i : Instr) (s t : State), s.stats.fits cfg = true → exec i s = .next t → ¬ zeroes i s →
    ∀ k : Fin 6, counter s.stats k ≤ counter t.stats k

/-- `connected` changes only by a successful CONNECT, by DISCONNECT and by RESET (R27). -/
def Obligations.OnlyThreeOperationsChangeConnected : Prop :=
  ∀ (i : Instr) (s t : State), exec i s = .next t → t.connected ≠ s.connected →
    (i = .connect true ∧ t.connected = true) ∨
    ((i = .disconnect ∨ i = .reset) ∧ t.connected = false)

/-- The ghost streams only grow (R15, R33): only TX.SEND emits on `tx`, only RX.CRCHI and the
decoders on `ev`, each at most once, and neither while not connected (R231, R232); no instruction
reads them (R33): with other streams it does the same, appends the same and leaves all else the same;
and none touches the operations that wait, so a step performs exactly one (R58). -/
def Obligations.StreamsOnlyGrow : Prop :=
  ∀ (i : Instr) (s t : State), exec i s = .next t →
    (t.tx = s.tx ∨ (s.connected = true ∧ ∃ m n f, i = .txSend m n ∧ t.tx = s.tx ++ f ∧
      t.result = some (.sent f))) ∧
    (t.ev = s.ev ∨ (s.connected = true ∧ (isDec i ∨ ∃ b, i = .rxCrchi b) ∧
      ∃ e, t.ev = s.ev ++ [e])) ∧
    (∀ tx ev, ∃ dtx dev, t.tx = s.tx ++ dtx ∧ t.ev = s.ev ++ dev ∧
      exec i { s with tx := tx, ev := ev } = .next { t with tx := tx ++ dtx, ev := ev ++ dev }) ∧
    t.pending = s.pending

/-- Only the parser's arms touch `buf`, and only they, RX.BYTE's resets and the three zeroing
operations touch `state`, `cursor` and `len` (R20, R51). That RESET, CONNECT and DISCONNECT leave
`buf` as it was is the model's choice (log entry 1): R37, R200 and U1 call it unspecified. -/
def Obligations.OnlyTheParserTouchesItsRegisters : Prop :=
  ∀ (i : Instr) (s t : State), exec i s = .next t → ¬ isRx i →
    t.buf = s.buf ∧ (¬ zeroes i s → t.state = s.state ∧ t.cursor = s.cursor ∧ t.len = s.len)

/-- RX.BYTE and TX.SEND are independent (R61): done in either order they leave the same
architectural state and the same streams. -/
def Obligations.ReceiveAndSendCommute : Prop :=
  ∀ (b : Byte) (m : Message) (n : Int) (s t u t' u' : State),
    rxByte b s = .next t → exec (.txSend m n) t = .next u →
    exec (.txSend m n) s = .next t' → rxByte b t' = .next u' → SameCore u u'

/-- An error outcome of a command leaves the state exactly as it was, but for the outcome itself
(R222, R225, R234). -/
def Obligations.CommandErrorsChangeNothing : Prop :=
  ∀ (i : Instr) (s t : State) (r : OpResult), exec i s = .next t → t.result = some r →
    (r = .notConnected ∨ r = .alreadyConnected ∨ r = .connectionFailure ∨ r = .ignored ∨
      ∃ f, r = .encodingError f) →
    t = answered s r

/-! ## Numerics -/

/-- `NUM.volt` and `NUM.pct` of finite operands are exact (R146), and R146's two values. -/
def Obligations.VoltAndPctAreExact : Prop :=
  (∀ (b p : F32) (x y : ℚ), ratOf (val32 b) = some x → ratOf (val32 p) = some y →
    ratOf (val64 (cfg.num.volt b p)) = some (x * y) ∧
    ratOf (val64 (cfg.num.pct p)) = some (y * 100)) ∧
  cfg.num.volt 0x41400000 0x3F000000 = 0x4018000000000000 ∧
  cfg.num.pct 0x3F000000 = 0x4049000000000000

/-- A NaN operand gives a NaN result, in every function of the numerics record (R146), whichever NaN
pattern the free value is. -/
def Obligations.NanOperandGivesNanResult : Prop :=
  ∀ x y : F32, val32 x = .nan →
    val64 (cfg.num.deg x) = .nan ∧ val64 (cfg.num.rpm x) = .nan ∧ val64 (cfg.num.pct x) = .nan ∧
    val64 (cfg.num.volt x y) = .nan ∧ val64 (cfg.num.volt y x) = .nan

/-- `NUM.deg` and `NUM.rpm` of a finite operand (R146's default bodies): the binary64 number nearest to
`x * 180 / PI` and to `x * 60 / (2 * PI)`, with `PI` the binary64 number of R146, rounded once to
nearest even since no product before the quotient is inexact; and with the operand's sign. -/
def Obligations.DegAndRpmAreNearest : Prop :=
  ∀ (x : F32) (r p : ℚ), ratOf (val32 x) = some r → ratOf (val64 0x400921FB54442D18) = some p →
    IsNearest (cfg.num.deg x) (r * 180 / p) ∧ (cfg.num.deg x).getLsbD 63 = x.getLsbD 31 ∧
    IsNearest (cfg.num.rpm x) (r * 60 / (2 * p)) ∧ (cfg.num.rpm x).getLsbD 63 = x.getLsbD 31
end

