-- ==== Sys2Proof/Laws/Bytes.lean ====
section
/-! SUPPORT. Little-endian byte sequences (R12) and the slices field extraction reads (R145). -/

namespace Sys2Proof

@[simp] theorem le_length (v n : Nat) : (le v n).length = n := by
  induction n generalizing v with
  | zero => rfl
  | succ n ih => simp [le, ih]

/-- `unle` is the inverse of `le` on values that fit (R12). -/
theorem unle_le (v n : Nat) (h : v < 256 ^ n) : unle (le v n) = v := by
  induction n generalizing v with
  | zero => simp [le, unle] at *; omega
  | succ n ih =>
    have hv : v / 256 < 256 ^ n := by
      rw [Nat.div_lt_iff_lt_mul (by decide)]
      simpa [Nat.pow_succ] using h
    simp only [le, unle, ih _ hv, BitVec.toNat_ofNat]
    omega

theorem unle_lt (bs : List Byte) : unle bs < 256 ^ bs.length := by
  induction bs with
  | nil => simp [unle]
  | cons b bs ih =>
    have hb : b.toNat < 256 := b.isLt
    simp only [unle, List.length_cons, Nat.pow_succ]
    omega

/-- `le` is the inverse of `unle` (R12). -/
theorem le_unle (bs : List Byte) : le (unle bs) bs.length = bs := by
  induction bs with
  | nil => rfl
  | cons b bs ih =>
    have hb : b.toNat < 256 := b.isLt
    have h1 : (b.toNat + 256 * unle bs) / 256 = unle bs := by omega
    have h2 : BitVec.ofNat 8 (b.toNat + 256 * unle bs) = b := by
      apply BitVec.eq_of_toNat_eq
      rw [BitVec.toNat_ofNat]
      omega
    simp [unle, le, h1, h2, ih]

theorem unle_le_bitvec {w n : Nat} (x : BitVec w) (h : 2 ^ w ≤ 256 ^ n) : unle (le x.toNat n) = x.toNat :=
  unle_le _ _ (Nat.lt_of_lt_of_le x.isLt h)

namespace Machine

/-- A slice that lies inside the first part of an append. -/
theorem bytesAt_append_left (xs ys : List Byte) (o n : Nat) (h : o + n ≤ xs.length) :
    bytesAt (xs ++ ys) o n = bytesAt xs o n := by
  unfold bytesAt
  rw [List.drop_append_of_le_length (by omega), List.take_append_of_le_length (by simp; omega)]

/-- A slice that begins after the first part of an append. -/
theorem bytesAt_append_right (xs ys : List Byte) (o n : Nat) :
    bytesAt (xs ++ ys) (xs.length + o) n = bytesAt ys o n := by
  unfold bytesAt
  rw [List.drop_append, List.drop_eq_nil_of_le (Nat.le_add_right _ _), Nat.add_sub_cancel_left]
  rfl

/-- The slice that is exactly the first part. -/
theorem bytesAt_zero_append (xs ys : List Byte) : bytesAt (xs ++ ys) 0 xs.length = xs := by
  simp [bytesAt]

theorem bytesAt_length (bs : List Byte) (o n : Nat) (h : o + n ≤ bs.length) :
    (bytesAt bs o n).length = n := by
  simp [bytesAt]
  omega

/-- Adjacent slices join (R78: no implicit padding). -/
theorem bytesAt_join (bs : List Byte) (o n k : Nat) :
    bytesAt bs o n ++ bytesAt bs (o + n) k = bytesAt bs o (n + k) := by
  simp only [bytesAt, List.take_add, List.drop_drop]

theorem bytesAt_all (bs : List Byte) (n : Nat) : bytesAt bs 0 n = bs.take n := by
  simp [bytesAt]

/-- The slice at the front of an append. -/
theorem bytesAt_here (xs ys : List Byte) (n : Nat) (h : xs.length = n) : bytesAt (xs ++ ys) 0 n = xs := by
  subst h
  exact bytesAt_zero_append _ _

/-- A slice that begins beyond the front of an append. -/
theorem bytesAt_skip (xs ys : List Byte) (o n : Nat) (h : xs.length ≤ o) :
    bytesAt (xs ++ ys) o n = bytesAt ys (o - xs.length) n := by
  obtain ⟨k, rfl⟩ := Nat.exists_eq_add_of_le h
  rw [bytesAt_append_right, Nat.add_sub_cancel_left]

/-- An integer field reads back as the value that was written (R145, R171). -/
theorem uint_roundtrip {v : Int} {n : Nat} (h0 : 0 ≤ v) (h : v < (2 : Int) ^ (8 * n)) :
    ((unle (le v.toNat n) : Nat) : Int) = v := by
  rw [unle_le]
  · omega
  · rw [show (256 : Nat) = 2 ^ 8 from rfl, ← pow_mul]
    have h2 : ((v.toNat : Nat) : Int) < ((2 ^ (8 * n) : Nat) : Int) := by push_cast; omega
    exact_mod_cast h2

/-- A `f32` field is moved unchanged in both directions (R16). -/
theorem f32_roundtrip (x : F32) : BitVec.ofNat 32 (unle (le x.toNat 4)) = x := by
  rw [unle_le_bitvec x (by decide)]
  simp

end Machine

end Sys2Proof
end

