-- ==== Sys2Proof/Laws/Codec.lean ====
section
/-! SUPPORT. The field writers and the type-id table: when each writer succeeds and what it writes
(R171), and that ids and types name each other (R75). -/

namespace Sys2Proof

/-- Every type is in the list of types. -/
theorem MsgType.mem_all (ty : MsgType) : ty ∈ MsgType.all := by
  cases ty <;> simp [MsgType.all]

/-- No two types share an id of the canonical table (R75). -/
theorem MsgType.id_injective : Function.Injective MsgType.id := by
  intro a b h
  cases a <;> cases b <;> first | rfl | exact absurd h (by decide)

/-- In a table without shared ids an id names the type whose id it is (R75, D3). -/
theorem IdTable.typeOf_id {tab : IdTable} (h : Function.Injective tab) (ty : MsgType) :
    tab.typeOf (tab ty) = some ty := by
  cases hf : tab.typeOf (tab ty) with
  | none =>
    have := List.find?_eq_none.mp hf ty ty.mem_all
    simp at this
  | some ty' =>
    have := List.find?_some hf
    exact congrArg some (h (by simpa using this))

/-- A type's id is the id that names it. -/
theorem IdTable.id_of_typeOf {tab : IdTable} {t : Byte} {ty : MsgType} (h : tab.typeOf t = some ty) :
    tab ty = t := by
  simpa using List.find?_some h

/-- The same for the canonical table. -/
@[simp] theorem MsgType.ofId_id (ty : MsgType) : MsgType.ofId ty.id = some ty :=
  IdTable.typeOf_id MsgType.id_injective ty

theorem MsgType.id_of_ofId {t : Byte} {ty : MsgType} (h : MsgType.ofId t = some ty) : ty.id = t :=
  IdTable.id_of_typeOf h

/-- In every table without shared ids the decoder a type's id selects is the type's (R92, D3). -/
theorem decodeFrameTypeUnder_id {tab : IdTable} (h : Function.Injective tab) {ty : MsgType}
    (hr : ty ≠ .request) (inst : U16) (body : List Byte) :
    decodeFrameTypeUnder tab (tab ty) inst body = decodeFrameType ty.id inst body := by
  unfold decodeFrameType decodeFrameTypeUnder
  rw [IdTable.typeOf_id h, IdTable.typeOf_id MsgType.id_injective]
  cases ty <;> first | rfl | exact absurd rfl hr

/-- The decoder takes a frame's header and body apart as R70 lays them out. -/
theorem decodeFrame_frameHead (tab : IdTable) (t : Byte) (inst : U16) (body : List Byte)
    (h : body.length ≤ 255) :
    decodeFrame tab (frameHead t inst body) = .ok (decodeFrameTypeUnder tab t inst body) := by
  have hn : (BitVec.ofNat 8 body.length).toNat = body.length := by
    rw [BitVec.toNat_ofNat]; omega
  have hi : BitVec.ofNat 16 (unle (le inst.toNat 2)) = inst := by
    rw [unle_le_bitvec inst (by decide)]; simp
  have hf : frameHead t inst body = 0xFE :: t :: BitVec.ofNat 8 inst.toNat ::
      BitVec.ofNat 8 (inst.toNat / 256) :: BitVec.ofNat 8 body.length :: body := rfl
  rw [hf]
  simp only [decodeFrame, hn]
  rw [if_neg (by simp), if_neg (by simp)]
  exact congrArg (fun x => Except.ok (decodeFrameTypeUnder tab t x body)) hi

namespace Machine

/-- `TIMER_HZ` is positive, whatever the open value is (R7). -/
theorem timerHz_pos : (0 : ℚ) < Config.timerHz := by
  unfold Config.timerHz
  positivity

/-- The binary logarithm of a fraction is that of the real it is. -/
theorem log_two_cast {x : ℚ} (hx : 0 < x) : Int.log 2 (x : ℝ) = Int.log 2 x := by
  have key : ∀ k : ℤ, k ≤ Int.log 2 (x : ℝ) ↔ k ≤ Int.log 2 x := fun k => by
    rw [← Int.zpow_le_iff_le_log (by decide) (by exact_mod_cast hx),
      ← Int.zpow_le_iff_le_log (by decide) hx]
    rw [← Rat.cast_le (K := ℝ)]
    push_cast
    rfl
  exact le_antisymm ((key _).mp le_rfl) ((key _).mpr le_rfl)

/-- Rounding a fraction to an integer is rounding the real it is. -/
theorem roundEven_cast (y : ℚ) : roundEven (y : ℝ) = roundEven y := by
  have h0 : ⌊(y : ℝ)⌋₊ = ⌊y⌋₊ := by
    rw [← Int.floor_toNat, ← Int.floor_toNat, Rat.floor_cast]
  have h1 : (2 * (⌊y⌋₊ : ℝ) + 1 < 2 * (y : ℝ)) ↔ 2 * (⌊y⌋₊ : ℚ) + 1 < 2 * y := by
    rw [← Rat.cast_lt (K := ℝ)]
    push_cast
    rfl
  have h2 : (2 * (⌊y⌋₊ : ℝ) + 1 = 2 * (y : ℝ)) ↔ 2 * (⌊y⌋₊ : ℚ) + 1 = 2 * y := by
    rw [← Rat.cast_inj (α := ℝ)]
    push_cast
    rfl
  simp only [roundEven, h0, h1, h2]

/-- Rounding a fraction to binary64 is rounding the real it is. -/
theorem nearest64_cast {x : ℚ} (hx : 0 < x) : nearest64 (x : ℝ) = nearest64 x := by
  have h (q : ℤ) : (x : ℝ) / (2 : ℝ) ^ q = ((x / 2 ^ q : ℚ) : ℝ) := by push_cast; rfl
  simp only [nearest64, log_two_cast hx, h, roundEven_cast]

/-- The machine's `NUM` is the default of R7 and R146, with its own `TIMER_HZ`. -/
theorem cfg_numIsDefault : NumIsDefault cfg := by
  show numDefault Config.timerHz = numDefault (Config.timerHz : ℝ)
  simp only [numDefault, nearest64_cast timerHz_pos]

/-- The configuration the machine runs under meets R7's and R8's constraints, whatever the open values
are. -/
theorem cfg_valid : cfg.Valid where
  poly := by decide
  ids := MsgType.id_injective
  stateW := by decide
  cntW := by decide
  telem := List.length_take_le ..
  wave := Nat.le_of_lt_succ Config.waveSizeRaw.isLt
  ttrLow := Nat.le_add_right ..
  ttrHigh := by
    have h : Config.ttrSizeRaw.val < 224 := Config.ttrSizeRaw.isLt
    show 32 + Config.ttrSizeRaw.val ≤ 255
    omega
  hz := by
    show (0 : ℝ) < (Config.timerHz : ℝ)
    exact_mod_cast timerHz_pos

theorem putU_ok {n : Nat} {v : Int} {field : Field} {bs : List Byte} :
    putU n v field = .ok bs ↔ 0 ≤ v ∧ v < (2 : Int) ^ (8 * n) ∧ bs = le v.toNat n := by
  unfold putU
  split
  · next h => simp; intro h1 h2; omega
  · next h =>
    have h1 : 0 ≤ v := by omega
    have h2 : v < (2 : Int) ^ (8 * n) := by omega
    simp [h1, h2, eq_comm]

/-- A value of the field's own width always fits. -/
theorem putU_bitvec {w : Nat} (n : Nat) (x : BitVec w) (field : Field) (h : w = 8 * n) :
    putU n (x.toNat : Int) field = .ok (le x.toNat n) := by
  rw [putU_ok]
  refine ⟨by omega, ?_, by simp⟩
  have hx := x.isLt
  subst h
  exact_mod_cast hx

theorem putU_error {n : Nat} {v : Int} {field : Field} (h : ¬ (0 ≤ v ∧ v < (2 : Int) ^ (8 * n))) :
    putU n v field = .error field := by
  unfold putU
  rw [if_pos (by omega)]

theorem putChar_ok {n : Nat} {s : List Byte} {field : Field} {bs : List Byte} :
    putChar n s field = .ok bs ↔ s.length ≤ n ∧ bs = padTo n s := by
  unfold putChar
  split
  · next h => simp; intro h1; omega
  · next h => simp [Nat.le_of_not_lt h, eq_comm]

theorem putRaw_ok {n : Nat} {s : List Byte} {field : Field} {bs : List Byte} :
    putRaw n s field = .ok bs ↔ s.length = n ∧ bs = s := by
  unfold putRaw
  split
  · next h => simp [h]
  · next h => simp [not_not.mp h, eq_comm]

@[simp] theorem putAll_nil : putAll [] = .ok [] := rfl

@[simp] theorem putAll_error (f : Field) (ws : List (Except Field (List Byte))) :
    putAll (.error f :: ws) = .error f := rfl

theorem putAll_cons_ok {w : Except Field (List Byte)} {ws : List (Except Field (List Byte))}
    {bs : List Byte} :
    putAll (w :: ws) = .ok bs ↔ ∃ a b, w = .ok a ∧ putAll ws = .ok b ∧ bs = a ++ b := by
  cases w with
  | error e => simp
  | ok a =>
    simp only [putAll]
    cases h : putAll ws with
    | error e => simp
    | ok b => simp [eq_comm]

/-- Writers that all succeed write their bytes one after the other. -/
theorem putAll_ok_cons (a : List Byte) (ws : List (Except Field (List Byte))) :
    putAll (.ok a :: ws) = (putAll ws).map (a ++ ·) := by
  simp only [putAll]
  cases putAll ws <;> rfl

theorem putAll_f32s (xs : List F32) :
    putAll (xs.map putF32) = .ok (xs.flatMap fun x => le x.toNat 4) := by
  induction xs with
  | nil => rfl
  | cons x xs ih => simp [putF32, putAll_ok_cons, ih, Except.map]

/-- A telemetry list of the wrong length is the error `telem` (R177). -/
theorem putTelem_error {n : Nat} {xs : List F32} (h : xs.length ≠ n) : putTelem n xs = .error .telem :=
  if_pos h

/-- Writers of which one fails write nothing. -/
theorem putAll_ne_ok_of_error {w : Except Field (List Byte)} {f : Field} (hw : w = .error f) :
    ∀ {ws : List (Except Field (List Byte))}, w ∈ ws → ∀ bs, putAll ws ≠ .ok bs
  | v :: ws, hm, bs, h => by
    obtain ⟨a, b, hv, hb, -⟩ := putAll_cons_ok.mp h
    rcases List.mem_cons.mp hm with rfl | hm
    · rw [hw] at hv; cases hv
    · exact putAll_ne_ok_of_error hw hm b hb

/-- TX.SEND accepts the messages ENC accepts and sends ENC's body; the two differ at most in which of
several errors they name (R177, R190, R227). -/
theorem sendBody_ok {c : Cfg} {m : Message} {body : List Byte} :
    sendBody c m = .ok body ↔ encodeBody c m = .ok body := by
  cases m with
  | statusData m =>
    show fieldsStatusData c m = _ ↔ bodyStatusData c m = _
    unfold bodyStatusData
    split
    · next h =>
      exact iff_of_false (putAll_ne_ok_of_error (putTelem_error h) (by simp) _) (by simp)
    · exact Iff.rfl
  | _ => exact Iff.rfl

theorem padTo_length {n : Nat} {s : List Byte} (h : s.length ≤ n) : (padTo n s).length = n := by
  simp [padTo]; omega

@[simp] theorem padTo_full {n : Nat} {s : List Byte} (h : s.length = n) : padTo n s = s := by
  simp [padTo, h]

/-- Consecutive `f32` fields, read back (R145). -/
theorem f32sAt_flatMap (xs : List F32) (pre post : List Byte) :
    f32sAt (pre ++ xs.flatMap (fun x => le x.toNat 4) ++ post) pre.length xs.length = xs := by
  induction xs generalizing pre with
  | nil => rfl
  | cons x xs ih =>
    have hx : f32At (pre ++ (x :: xs).flatMap (fun x => le x.toNat 4) ++ post) pre.length = x := by
      unfold f32At
      have := bytesAt_append_right pre ((x :: xs).flatMap (fun x => le x.toNat 4) ++ post) 0 4
      rw [Nat.add_zero] at this
      rw [List.append_assoc, this, List.flatMap_cons, List.append_assoc]
      have h4 : bytesAt (le x.toNat 4 ++ (xs.flatMap (fun x => le x.toNat 4) ++ post)) 0 4 =
          le x.toNat 4 := by
        simpa using bytesAt_zero_append (le x.toNat 4) (xs.flatMap (fun x => le x.toNat 4) ++ post)
      rw [h4, f32_roundtrip]
    have ih' := ih (pre ++ le x.toNat 4)
    have hpre : (pre ++ le x.toNat 4) ++ xs.flatMap (fun x => le x.toNat 4) ++ post =
        pre ++ (x :: xs).flatMap (fun x => le x.toNat 4) ++ post := by simp
    rw [hpre] at ih'
    unfold f32sAt at *
    rw [List.length_cons, List.range_succ_eq_map, List.map_cons, List.map_map]
    refine congrArg₂ List.cons (by simpa using hx) ?_
    refine Eq.trans (List.map_congr_left fun i _ => ?_) ih'
    simp only [Function.comp, List.length_append, le_length]
    congr 1
    omega

end Machine

end Sys2Proof
end

