-- ==== Sys2Proof/Laws/State.lean ====
section
/-! SUPPORT. What each named update of State does to each field, one lemma per field and update, so
that no later proof unfolds a record update. -/

namespace Sys2Proof.Machine

variable (s : State)

/-! ### storeAt -/

@[simp] theorem State.storeAt_state (a : Nat) (b : Byte) (c : BitVec 9) (st : Nat) :
    (s.storeAt a b c st).state = st := rfl
@[simp] theorem State.storeAt_cursor (a : Nat) (b : Byte) (c : BitVec 9) (st : Nat) :
    (s.storeAt a b c st).cursor = c := rfl
@[simp] theorem State.storeAt_len (a : Nat) (b : Byte) (c : BitVec 9) (st : Nat) :
    (s.storeAt a b c st).len = s.len := rfl
@[simp] theorem State.storeAt_buf (a : Nat) (b : Byte) (c : BitVec 9) (st : Nat) :
    (s.storeAt a b c st).buf = s.buf.write a b := rfl
@[simp] theorem State.storeAt_connected (a : Nat) (b : Byte) (c : BitVec 9) (st : Nat) :
    (s.storeAt a b c st).connected = s.connected := rfl
@[simp] theorem State.storeAt_stats (a : Nat) (b : Byte) (c : BitVec 9) (st : Nat) :
    (s.storeAt a b c st).stats = s.stats := rfl
@[simp] theorem State.storeAt_tx (a : Nat) (b : Byte) (c : BitVec 9) (st : Nat) :
    (s.storeAt a b c st).tx = s.tx := rfl
@[simp] theorem State.storeAt_ev (a : Nat) (b : Byte) (c : BitVec 9) (st : Nat) :
    (s.storeAt a b c st).ev = s.ev := rfl
@[simp] theorem State.storeAt_result (a : Nat) (b : Byte) (c : BitVec 9) (st : Nat) :
    (s.storeAt a b c st).result = s.result := rfl
@[simp] theorem State.storeAt_frames (a : Nat) (b : Byte) (c : BitVec 9) (st : Nat) :
    (s.storeAt a b c st).frames = s.frames := rfl
@[simp] theorem State.storeAt_hist (a : Nat) (b : Byte) (c : BitVec 9) (st : Nat) :
    (s.storeAt a b c st).hist = s.hist := rfl
@[simp] theorem State.storeAt_marks (a : Nat) (b : Byte) (c : BitVec 9) (st : Nat) :
    (s.storeAt a b c st).marks = s.marks := rfl
@[simp] theorem State.storeAt_pending (a : Nat) (b : Byte) (c : BitVec 9) (st : Nat) :
    (s.storeAt a b c st).pending = s.pending := rfl

/-! ### push -/

@[simp] theorem State.push_state (b : Byte) :
    (s.push b).state = s.state := rfl
@[simp] theorem State.push_cursor (b : Byte) :
    (s.push b).cursor = s.cursor + 1 := rfl
@[simp] theorem State.push_len (b : Byte) :
    (s.push b).len = s.len := rfl
@[simp] theorem State.push_buf (b : Byte) :
    (s.push b).buf = s.buf.write s.cursor.toNat b := rfl
@[simp] theorem State.push_connected (b : Byte) :
    (s.push b).connected = s.connected := rfl
@[simp] theorem State.push_stats (b : Byte) :
    (s.push b).stats = s.stats := rfl
@[simp] theorem State.push_tx (b : Byte) :
    (s.push b).tx = s.tx := rfl
@[simp] theorem State.push_ev (b : Byte) :
    (s.push b).ev = s.ev := rfl
@[simp] theorem State.push_result (b : Byte) :
    (s.push b).result = s.result := rfl
@[simp] theorem State.push_frames (b : Byte) :
    (s.push b).frames = s.frames := rfl
@[simp] theorem State.push_hist (b : Byte) :
    (s.push b).hist = s.hist := rfl
@[simp] theorem State.push_marks (b : Byte) :
    (s.push b).marks = s.marks := rfl
@[simp] theorem State.push_pending (b : Byte) :
    (s.push b).pending = s.pending := rfl

/-! ### setState -/

@[simp] theorem State.setState_state (st : Nat) :
    (s.setState st).state = st := rfl
@[simp] theorem State.setState_cursor (st : Nat) :
    (s.setState st).cursor = s.cursor := rfl
@[simp] theorem State.setState_len (st : Nat) :
    (s.setState st).len = s.len := rfl
@[simp] theorem State.setState_buf (st : Nat) :
    (s.setState st).buf = s.buf := rfl
@[simp] theorem State.setState_connected (st : Nat) :
    (s.setState st).connected = s.connected := rfl
@[simp] theorem State.setState_stats (st : Nat) :
    (s.setState st).stats = s.stats := rfl
@[simp] theorem State.setState_tx (st : Nat) :
    (s.setState st).tx = s.tx := rfl
@[simp] theorem State.setState_ev (st : Nat) :
    (s.setState st).ev = s.ev := rfl
@[simp] theorem State.setState_result (st : Nat) :
    (s.setState st).result = s.result := rfl
@[simp] theorem State.setState_frames (st : Nat) :
    (s.setState st).frames = s.frames := rfl
@[simp] theorem State.setState_hist (st : Nat) :
    (s.setState st).hist = s.hist := rfl
@[simp] theorem State.setState_marks (st : Nat) :
    (s.setState st).marks = s.marks := rfl
@[simp] theorem State.setState_pending (st : Nat) :
    (s.setState st).pending = s.pending := rfl

/-! ### setLen -/

@[simp] theorem State.setLen_state (b : Byte) :
    (s.setLen b).state = s.state := rfl
@[simp] theorem State.setLen_cursor (b : Byte) :
    (s.setLen b).cursor = s.cursor := rfl
@[simp] theorem State.setLen_len (b : Byte) :
    (s.setLen b).len = b := rfl
@[simp] theorem State.setLen_buf (b : Byte) :
    (s.setLen b).buf = s.buf := rfl
@[simp] theorem State.setLen_connected (b : Byte) :
    (s.setLen b).connected = s.connected := rfl
@[simp] theorem State.setLen_stats (b : Byte) :
    (s.setLen b).stats = s.stats := rfl
@[simp] theorem State.setLen_tx (b : Byte) :
    (s.setLen b).tx = s.tx := rfl
@[simp] theorem State.setLen_ev (b : Byte) :
    (s.setLen b).ev = s.ev := rfl
@[simp] theorem State.setLen_result (b : Byte) :
    (s.setLen b).result = s.result := rfl
@[simp] theorem State.setLen_frames (b : Byte) :
    (s.setLen b).frames = s.frames := rfl
@[simp] theorem State.setLen_hist (b : Byte) :
    (s.setLen b).hist = s.hist := rfl
@[simp] theorem State.setLen_marks (b : Byte) :
    (s.setLen b).marks = s.marks := rfl
@[simp] theorem State.setLen_pending (b : Byte) :
    (s.setLen b).pending = s.pending := rfl

/-! ### idleParser -/

@[simp] theorem State.idleParser_state :
    (s.idleParser).state = 0 := rfl
@[simp] theorem State.idleParser_cursor :
    (s.idleParser).cursor = 0 := rfl
@[simp] theorem State.idleParser_len :
    (s.idleParser).len = 0 := rfl
@[simp] theorem State.idleParser_buf :
    (s.idleParser).buf = s.buf := rfl
@[simp] theorem State.idleParser_connected :
    (s.idleParser).connected = s.connected := rfl
@[simp] theorem State.idleParser_stats :
    (s.idleParser).stats = s.stats := rfl
@[simp] theorem State.idleParser_tx :
    (s.idleParser).tx = s.tx := rfl
@[simp] theorem State.idleParser_ev :
    (s.idleParser).ev = s.ev := rfl
@[simp] theorem State.idleParser_result :
    (s.idleParser).result = s.result := rfl
@[simp] theorem State.idleParser_frames :
    (s.idleParser).frames = s.frames := rfl
@[simp] theorem State.idleParser_hist :
    (s.idleParser).hist = s.hist := rfl
@[simp] theorem State.idleParser_marks :
    (s.idleParser).marks = s.marks := rfl
@[simp] theorem State.idleParser_pending :
    (s.idleParser).pending = s.pending := rfl

/-! ### setConnected -/

@[simp] theorem State.setConnected_state (c : Bool) :
    (s.setConnected c).state = s.state := rfl
@[simp] theorem State.setConnected_cursor (c : Bool) :
    (s.setConnected c).cursor = s.cursor := rfl
@[simp] theorem State.setConnected_len (c : Bool) :
    (s.setConnected c).len = s.len := rfl
@[simp] theorem State.setConnected_buf (c : Bool) :
    (s.setConnected c).buf = s.buf := rfl
@[simp] theorem State.setConnected_connected (c : Bool) :
    (s.setConnected c).connected = c := rfl
@[simp] theorem State.setConnected_stats (c : Bool) :
    (s.setConnected c).stats = s.stats := rfl
@[simp] theorem State.setConnected_tx (c : Bool) :
    (s.setConnected c).tx = s.tx := rfl
@[simp] theorem State.setConnected_ev (c : Bool) :
    (s.setConnected c).ev = s.ev := rfl
@[simp] theorem State.setConnected_result (c : Bool) :
    (s.setConnected c).result = s.result := rfl
@[simp] theorem State.setConnected_frames (c : Bool) :
    (s.setConnected c).frames = s.frames := rfl
@[simp] theorem State.setConnected_hist (c : Bool) :
    (s.setConnected c).hist = s.hist := rfl
@[simp] theorem State.setConnected_marks (c : Bool) :
    (s.setConnected c).marks = s.marks := rfl
@[simp] theorem State.setConnected_pending (c : Bool) :
    (s.setConnected c).pending = s.pending := rfl

/-! ### emitTx -/

@[simp] theorem State.emitTx_state (bs : List Byte) :
    (s.emitTx bs).state = s.state := rfl
@[simp] theorem State.emitTx_cursor (bs : List Byte) :
    (s.emitTx bs).cursor = s.cursor := rfl
@[simp] theorem State.emitTx_len (bs : List Byte) :
    (s.emitTx bs).len = s.len := rfl
@[simp] theorem State.emitTx_buf (bs : List Byte) :
    (s.emitTx bs).buf = s.buf := rfl
@[simp] theorem State.emitTx_connected (bs : List Byte) :
    (s.emitTx bs).connected = s.connected := rfl
@[simp] theorem State.emitTx_stats (bs : List Byte) :
    (s.emitTx bs).stats = s.stats := rfl
@[simp] theorem State.emitTx_tx (bs : List Byte) :
    (s.emitTx bs).tx = s.tx ++ bs := rfl
@[simp] theorem State.emitTx_ev (bs : List Byte) :
    (s.emitTx bs).ev = s.ev := rfl
@[simp] theorem State.emitTx_result (bs : List Byte) :
    (s.emitTx bs).result = s.result := rfl
@[simp] theorem State.emitTx_frames (bs : List Byte) :
    (s.emitTx bs).frames = s.frames := rfl
@[simp] theorem State.emitTx_hist (bs : List Byte) :
    (s.emitTx bs).hist = s.hist := rfl
@[simp] theorem State.emitTx_marks (bs : List Byte) :
    (s.emitTx bs).marks = s.marks := rfl
@[simp] theorem State.emitTx_pending (bs : List Byte) :
    (s.emitTx bs).pending = s.pending := rfl

/-! ### emitEv -/

@[simp] theorem State.emitEv_state (e : Event) :
    (s.emitEv e).state = s.state := rfl
@[simp] theorem State.emitEv_cursor (e : Event) :
    (s.emitEv e).cursor = s.cursor := rfl
@[simp] theorem State.emitEv_len (e : Event) :
    (s.emitEv e).len = s.len := rfl
@[simp] theorem State.emitEv_buf (e : Event) :
    (s.emitEv e).buf = s.buf := rfl
@[simp] theorem State.emitEv_connected (e : Event) :
    (s.emitEv e).connected = s.connected := rfl
@[simp] theorem State.emitEv_stats (e : Event) :
    (s.emitEv e).stats = s.stats := rfl
@[simp] theorem State.emitEv_tx (e : Event) :
    (s.emitEv e).tx = s.tx := rfl
@[simp] theorem State.emitEv_ev (e : Event) :
    (s.emitEv e).ev = s.ev ++ [e] := rfl
@[simp] theorem State.emitEv_result (e : Event) :
    (s.emitEv e).result = s.result := rfl
@[simp] theorem State.emitEv_frames (e : Event) :
    (s.emitEv e).frames = s.frames := rfl
@[simp] theorem State.emitEv_hist (e : Event) :
    (s.emitEv e).hist = s.hist := rfl
@[simp] theorem State.emitEv_marks (e : Event) :
    (s.emitEv e).marks = s.marks := rfl
@[simp] theorem State.emitEv_pending (e : Event) :
    (s.emitEv e).pending = s.pending := rfl

/-! ### finish -/

@[simp] theorem State.finish_state (r : OpResult) :
    (s.finish r).state = s.state := rfl
@[simp] theorem State.finish_cursor (r : OpResult) :
    (s.finish r).cursor = s.cursor := rfl
@[simp] theorem State.finish_len (r : OpResult) :
    (s.finish r).len = s.len := rfl
@[simp] theorem State.finish_buf (r : OpResult) :
    (s.finish r).buf = s.buf := rfl
@[simp] theorem State.finish_connected (r : OpResult) :
    (s.finish r).connected = s.connected := rfl
@[simp] theorem State.finish_stats (r : OpResult) :
    (s.finish r).stats = s.stats := rfl
@[simp] theorem State.finish_tx (r : OpResult) :
    (s.finish r).tx = s.tx := rfl
@[simp] theorem State.finish_ev (r : OpResult) :
    (s.finish r).ev = s.ev := rfl
@[simp] theorem State.finish_result (r : OpResult) :
    (s.finish r).result = some r := rfl
@[simp] theorem State.finish_frames (r : OpResult) :
    (s.finish r).frames = s.frames := rfl
@[simp] theorem State.finish_hist (r : OpResult) :
    (s.finish r).hist = s.hist := rfl
@[simp] theorem State.finish_marks (r : OpResult) :
    (s.finish r).marks = s.marks := rfl
@[simp] theorem State.finish_pending (r : OpResult) :
    (s.finish r).pending = s.pending := rfl

/-! ### startOp -/

@[simp] theorem State.startOp_state (op : Op) :
    (s.startOp op).state = s.state := rfl
@[simp] theorem State.startOp_cursor (op : Op) :
    (s.startOp op).cursor = s.cursor := rfl
@[simp] theorem State.startOp_len (op : Op) :
    (s.startOp op).len = s.len := rfl
@[simp] theorem State.startOp_buf (op : Op) :
    (s.startOp op).buf = s.buf := rfl
@[simp] theorem State.startOp_connected (op : Op) :
    (s.startOp op).connected = s.connected := rfl
@[simp] theorem State.startOp_stats (op : Op) :
    (s.startOp op).stats = s.stats := rfl
@[simp] theorem State.startOp_tx (op : Op) :
    (s.startOp op).tx = s.tx := rfl
@[simp] theorem State.startOp_ev (op : Op) :
    (s.startOp op).ev = s.ev := rfl
@[simp] theorem State.startOp_result (op : Op) :
    (s.startOp op).result = s.result := rfl
@[simp] theorem State.startOp_frames (op : Op) :
    (s.startOp op).frames = s.frames := rfl
@[simp] theorem State.startOp_hist (op : Op) :
    (s.startOp op).hist = s.hist := rfl
@[simp] theorem State.startOp_marks (op : Op) :
    (s.startOp op).marks = s.marks := rfl
@[simp] theorem State.startOp_pending (op : Op) :
    (s.startOp op).pending = op :: s.pending := rfl

/-! ### bumpBytesRcvd -/

@[simp] theorem State.bumpBytesRcvd_state (c : Cfg) :
    (s.bumpBytesRcvd c).state = s.state := rfl
@[simp] theorem State.bumpBytesRcvd_cursor (c : Cfg) :
    (s.bumpBytesRcvd c).cursor = s.cursor := rfl
@[simp] theorem State.bumpBytesRcvd_len (c : Cfg) :
    (s.bumpBytesRcvd c).len = s.len := rfl
@[simp] theorem State.bumpBytesRcvd_buf (c : Cfg) :
    (s.bumpBytesRcvd c).buf = s.buf := rfl
@[simp] theorem State.bumpBytesRcvd_connected (c : Cfg) :
    (s.bumpBytesRcvd c).connected = s.connected := rfl
@[simp] theorem State.bumpBytesRcvd_stats (c : Cfg) :
    (s.bumpBytesRcvd c).stats = { s.stats with bytesRcvd := satInc c s.stats.bytesRcvd 1 } := rfl
@[simp] theorem State.bumpBytesRcvd_tx (c : Cfg) :
    (s.bumpBytesRcvd c).tx = s.tx := rfl
@[simp] theorem State.bumpBytesRcvd_ev (c : Cfg) :
    (s.bumpBytesRcvd c).ev = s.ev := rfl
@[simp] theorem State.bumpBytesRcvd_result (c : Cfg) :
    (s.bumpBytesRcvd c).result = s.result := rfl
@[simp] theorem State.bumpBytesRcvd_frames (c : Cfg) :
    (s.bumpBytesRcvd c).frames = s.frames := rfl
@[simp] theorem State.bumpBytesRcvd_hist (c : Cfg) :
    (s.bumpBytesRcvd c).hist = s.hist := rfl
@[simp] theorem State.bumpBytesRcvd_marks (c : Cfg) :
    (s.bumpBytesRcvd c).marks = s.marks := rfl
@[simp] theorem State.bumpBytesRcvd_pending (c : Cfg) :
    (s.bumpBytesRcvd c).pending = s.pending := rfl

/-! ### bumpMsgsRcvd -/

@[simp] theorem State.bumpMsgsRcvd_state (c : Cfg) :
    (s.bumpMsgsRcvd c).state = s.state := rfl
@[simp] theorem State.bumpMsgsRcvd_cursor (c : Cfg) :
    (s.bumpMsgsRcvd c).cursor = s.cursor := rfl
@[simp] theorem State.bumpMsgsRcvd_len (c : Cfg) :
    (s.bumpMsgsRcvd c).len = s.len := rfl
@[simp] theorem State.bumpMsgsRcvd_buf (c : Cfg) :
    (s.bumpMsgsRcvd c).buf = s.buf := rfl
@[simp] theorem State.bumpMsgsRcvd_connected (c : Cfg) :
    (s.bumpMsgsRcvd c).connected = s.connected := rfl
@[simp] theorem State.bumpMsgsRcvd_stats (c : Cfg) :
    (s.bumpMsgsRcvd c).stats = { s.stats with msgsRcvd := satInc c s.stats.msgsRcvd 1 } := rfl
@[simp] theorem State.bumpMsgsRcvd_tx (c : Cfg) :
    (s.bumpMsgsRcvd c).tx = s.tx := rfl
@[simp] theorem State.bumpMsgsRcvd_ev (c : Cfg) :
    (s.bumpMsgsRcvd c).ev = s.ev := rfl
@[simp] theorem State.bumpMsgsRcvd_result (c : Cfg) :
    (s.bumpMsgsRcvd c).result = s.result := rfl
@[simp] theorem State.bumpMsgsRcvd_frames (c : Cfg) :
    (s.bumpMsgsRcvd c).frames = s.frames + 1 := rfl
@[simp] theorem State.bumpMsgsRcvd_hist (c : Cfg) :
    (s.bumpMsgsRcvd c).hist = s.hist := rfl
@[simp] theorem State.bumpMsgsRcvd_marks (c : Cfg) :
    (s.bumpMsgsRcvd c).marks = s.marks := rfl
@[simp] theorem State.bumpMsgsRcvd_pending (c : Cfg) :
    (s.bumpMsgsRcvd c).pending = s.pending := rfl

/-! ### bumpBadCrc -/

@[simp] theorem State.bumpBadCrc_state (c : Cfg) :
    (s.bumpBadCrc c).state = s.state := rfl
@[simp] theorem State.bumpBadCrc_cursor (c : Cfg) :
    (s.bumpBadCrc c).cursor = s.cursor := rfl
@[simp] theorem State.bumpBadCrc_len (c : Cfg) :
    (s.bumpBadCrc c).len = s.len := rfl
@[simp] theorem State.bumpBadCrc_buf (c : Cfg) :
    (s.bumpBadCrc c).buf = s.buf := rfl
@[simp] theorem State.bumpBadCrc_connected (c : Cfg) :
    (s.bumpBadCrc c).connected = s.connected := rfl
@[simp] theorem State.bumpBadCrc_stats (c : Cfg) :
    (s.bumpBadCrc c).stats = { s.stats with badCrc := satInc c s.stats.badCrc 1 } := rfl
@[simp] theorem State.bumpBadCrc_tx (c : Cfg) :
    (s.bumpBadCrc c).tx = s.tx := rfl
@[simp] theorem State.bumpBadCrc_ev (c : Cfg) :
    (s.bumpBadCrc c).ev = s.ev := rfl
@[simp] theorem State.bumpBadCrc_result (c : Cfg) :
    (s.bumpBadCrc c).result = s.result := rfl
@[simp] theorem State.bumpBadCrc_frames (c : Cfg) :
    (s.bumpBadCrc c).frames = s.frames := rfl
@[simp] theorem State.bumpBadCrc_hist (c : Cfg) :
    (s.bumpBadCrc c).hist = s.hist := rfl
@[simp] theorem State.bumpBadCrc_marks (c : Cfg) :
    (s.bumpBadCrc c).marks = s.marks := rfl
@[simp] theorem State.bumpBadCrc_pending (c : Cfg) :
    (s.bumpBadCrc c).pending = s.pending := rfl

/-! ### bumpDropped -/

@[simp] theorem State.bumpDropped_state (c : Cfg) :
    (s.bumpDropped c).state = s.state := rfl
@[simp] theorem State.bumpDropped_cursor (c : Cfg) :
    (s.bumpDropped c).cursor = s.cursor := rfl
@[simp] theorem State.bumpDropped_len (c : Cfg) :
    (s.bumpDropped c).len = s.len := rfl
@[simp] theorem State.bumpDropped_buf (c : Cfg) :
    (s.bumpDropped c).buf = s.buf := rfl
@[simp] theorem State.bumpDropped_connected (c : Cfg) :
    (s.bumpDropped c).connected = s.connected := rfl
@[simp] theorem State.bumpDropped_stats (c : Cfg) :
    (s.bumpDropped c).stats = { s.stats with dropped := satInc c s.stats.dropped 1 } := rfl
@[simp] theorem State.bumpDropped_tx (c : Cfg) :
    (s.bumpDropped c).tx = s.tx := rfl
@[simp] theorem State.bumpDropped_ev (c : Cfg) :
    (s.bumpDropped c).ev = s.ev := rfl
@[simp] theorem State.bumpDropped_result (c : Cfg) :
    (s.bumpDropped c).result = s.result := rfl
@[simp] theorem State.bumpDropped_frames (c : Cfg) :
    (s.bumpDropped c).frames = s.frames := rfl
@[simp] theorem State.bumpDropped_hist (c : Cfg) :
    (s.bumpDropped c).hist = s.hist := rfl
@[simp] theorem State.bumpDropped_marks (c : Cfg) :
    (s.bumpDropped c).marks = s.marks := rfl
@[simp] theorem State.bumpDropped_pending (c : Cfg) :
    (s.bumpDropped c).pending = s.pending := rfl

/-! ### bumpSent -/

@[simp] theorem State.bumpSent_state (c : Cfg) (k : Nat) :
    (s.bumpSent c k).state = s.state := rfl
@[simp] theorem State.bumpSent_cursor (c : Cfg) (k : Nat) :
    (s.bumpSent c k).cursor = s.cursor := rfl
@[simp] theorem State.bumpSent_len (c : Cfg) (k : Nat) :
    (s.bumpSent c k).len = s.len := rfl
@[simp] theorem State.bumpSent_buf (c : Cfg) (k : Nat) :
    (s.bumpSent c k).buf = s.buf := rfl
@[simp] theorem State.bumpSent_connected (c : Cfg) (k : Nat) :
    (s.bumpSent c k).connected = s.connected := rfl
@[simp] theorem State.bumpSent_stats (c : Cfg) (k : Nat) :
    (s.bumpSent c k).stats =
      { s.stats with msgsSent := satInc c s.stats.msgsSent 1,
                     bytesSent := satInc c s.stats.bytesSent k } := rfl
@[simp] theorem State.bumpSent_tx (c : Cfg) (k : Nat) :
    (s.bumpSent c k).tx = s.tx := rfl
@[simp] theorem State.bumpSent_ev (c : Cfg) (k : Nat) :
    (s.bumpSent c k).ev = s.ev := rfl
@[simp] theorem State.bumpSent_result (c : Cfg) (k : Nat) :
    (s.bumpSent c k).result = s.result := rfl
@[simp] theorem State.bumpSent_frames (c : Cfg) (k : Nat) :
    (s.bumpSent c k).frames = s.frames := rfl
@[simp] theorem State.bumpSent_hist (c : Cfg) (k : Nat) :
    (s.bumpSent c k).hist = s.hist := rfl
@[simp] theorem State.bumpSent_marks (c : Cfg) (k : Nat) :
    (s.bumpSent c k).marks = s.marks := rfl
@[simp] theorem State.bumpSent_pending (c : Cfg) (k : Nat) :
    (s.bumpSent c k).pending = s.pending := rfl

/-! ### record -/

@[simp] theorem State.record_state :
    (s.record).state = s.state := rfl
@[simp] theorem State.record_cursor :
    (s.record).cursor = s.cursor := rfl
@[simp] theorem State.record_len :
    (s.record).len = s.len := rfl
@[simp] theorem State.record_buf :
    (s.record).buf = s.buf := rfl
@[simp] theorem State.record_connected :
    (s.record).connected = s.connected := rfl
@[simp] theorem State.record_stats :
    (s.record).stats = s.stats := rfl
@[simp] theorem State.record_tx :
    (s.record).tx = s.tx := rfl
@[simp] theorem State.record_ev :
    (s.record).ev = s.ev := rfl
@[simp] theorem State.record_result :
    (s.record).result = s.result := rfl
@[simp] theorem State.record_frames :
    (s.record).frames = s.frames := rfl
@[simp] theorem State.record_hist :
    (s.record).hist = s.now :: s.hist := rfl
@[simp] theorem State.record_marks :
    (s.record).marks = s.marks := rfl
@[simp] theorem State.record_pending :
    (s.record).pending = s.pending := rfl

/-! ### now -/

@[simp] theorem State.now_stats : s.now.stats = s.stats := rfl
@[simp] theorem State.now_frames : s.now.frames = s.frames := rfl

/-! ### zeroStats -/

@[simp] theorem State.zeroStats_state :
    (s.zeroStats).state = s.state := rfl
@[simp] theorem State.zeroStats_cursor :
    (s.zeroStats).cursor = s.cursor := rfl
@[simp] theorem State.zeroStats_len :
    (s.zeroStats).len = s.len := rfl
@[simp] theorem State.zeroStats_buf :
    (s.zeroStats).buf = s.buf := rfl
@[simp] theorem State.zeroStats_connected :
    (s.zeroStats).connected = s.connected := rfl
@[simp] theorem State.zeroStats_stats :
    (s.zeroStats).stats = Stats.zero := rfl
@[simp] theorem State.zeroStats_tx :
    (s.zeroStats).tx = s.tx := rfl
@[simp] theorem State.zeroStats_ev :
    (s.zeroStats).ev = s.ev := rfl
@[simp] theorem State.zeroStats_result :
    (s.zeroStats).result = s.result := rfl
@[simp] theorem State.zeroStats_frames :
    (s.zeroStats).frames = s.frames := rfl
@[simp] theorem State.zeroStats_hist :
    (s.zeroStats).hist = [] := rfl
@[simp] theorem State.zeroStats_marks :
    (s.zeroStats).marks = [] := rfl
@[simp] theorem State.zeroStats_pending :
    (s.zeroStats).pending = s.pending := rfl

/-! ### setMark -/

@[simp] theorem State.setMark_state (r : Nat) :
    (s.setMark r).state = s.state := rfl
@[simp] theorem State.setMark_cursor (r : Nat) :
    (s.setMark r).cursor = s.cursor := rfl
@[simp] theorem State.setMark_len (r : Nat) :
    (s.setMark r).len = s.len := rfl
@[simp] theorem State.setMark_buf (r : Nat) :
    (s.setMark r).buf = s.buf := rfl
@[simp] theorem State.setMark_connected (r : Nat) :
    (s.setMark r).connected = s.connected := rfl
@[simp] theorem State.setMark_stats (r : Nat) :
    (s.setMark r).stats = s.stats := rfl
@[simp] theorem State.setMark_tx (r : Nat) :
    (s.setMark r).tx = s.tx := rfl
@[simp] theorem State.setMark_ev (r : Nat) :
    (s.setMark r).ev = s.ev := rfl
@[simp] theorem State.setMark_result (r : Nat) :
    (s.setMark r).result = s.result := rfl
@[simp] theorem State.setMark_frames (r : Nat) :
    (s.setMark r).frames = s.frames := rfl
@[simp] theorem State.setMark_hist (r : Nat) :
    (s.setMark r).hist = s.hist := rfl
@[simp] theorem State.setMark_marks (r : Nat) :
    (s.setMark r).marks = (r, s.hist.length) :: s.marks.filter (·.1 != r) := rfl
@[simp] theorem State.setMark_pending (r : Nat) :
    (s.setMark r).pending = s.pending := rfl

/-! ### restart -/

@[simp] theorem State.restart_state (c : Bool) :
    (s.restart c).state = 0 := rfl
@[simp] theorem State.restart_cursor (c : Bool) :
    (s.restart c).cursor = 0 := rfl
@[simp] theorem State.restart_len (c : Bool) :
    (s.restart c).len = 0 := rfl
@[simp] theorem State.restart_buf (c : Bool) :
    (s.restart c).buf = s.buf := rfl
@[simp] theorem State.restart_connected (c : Bool) :
    (s.restart c).connected = c := rfl
@[simp] theorem State.restart_stats (c : Bool) :
    (s.restart c).stats = Stats.zero := rfl
@[simp] theorem State.restart_tx (c : Bool) :
    (s.restart c).tx = s.tx := rfl
@[simp] theorem State.restart_ev (c : Bool) :
    (s.restart c).ev = s.ev := rfl
@[simp] theorem State.restart_result (c : Bool) :
    (s.restart c).result = s.result := rfl
@[simp] theorem State.restart_frames (c : Bool) :
    (s.restart c).frames = s.frames := rfl
@[simp] theorem State.restart_hist (c : Bool) :
    (s.restart c).hist = [] := rfl
@[simp] theorem State.restart_marks (c : Bool) :
    (s.restart c).marks = [] := rfl
@[simp] theorem State.restart_pending (c : Bool) :
    (s.restart c).pending = s.pending := rfl

end Sys2Proof.Machine
end

