-- ==== Sys2Proof/Laws/Counters.lean ====
section
/-! SUPPORT. The counters: saturation, order, and the window of STAT.READ. -/

namespace Sys2Proof.Machine

/-! ## Saturation (R17) -/

/-- A counter stays within its width (R28, R29 (e)). -/
theorem satInc_lt (c : Cfg) (v : Nat) (k : Nat) : satInc c v k < 2 ^ c.cntW := by
  have : 0 < 2 ^ c.cntW := Nat.two_pow_pos _
  unfold satInc
  omega

/-- A counter never decreases by sat_inc (R29 (a)). -/
theorem le_satInc {c : Cfg} {v : Nat} (h : v < 2 ^ c.cntW) (k : Nat) : v ≤ satInc c v k := by
  unfold satInc
  omega

/-- More occurrences leave no smaller count. -/
theorem satInc_mono (c : Cfg) {v w : Nat} (h : v ≤ w) (k : Nat) : satInc c v k ≤ satInc c w k := by
  unfold satInc
  omega

/-- Two increments are one by the sum. -/
theorem satInc_satInc (c : Cfg) (v : Nat) (j k : Nat) :
    satInc c (satInc c v j) k = satInc c v (j + k) := by
  unfold satInc
  omega

theorem satInc_zero {c : Cfg} {v : Nat} (h : v < 2 ^ c.cntW) : satInc c v 0 = v := by
  unfold satInc
  omega

/-! ## Order and width of the six counters -/

@[simp] theorem Stats.le_refl (a : Stats) : a.le a = true := by simp [Stats.le]

theorem Stats.le_trans {a b c : Stats} (h : a.le b = true) (h' : b.le c = true) : a.le c = true := by
  simp only [Stats.le, Bool.and_eq_true, decide_eq_true_eq] at *
  omega

theorem Stats.fits_zero (c : Cfg) : Stats.zero.fits c = true := by
  have : 0 < 2 ^ c.cntW := Nat.two_pow_pos _
  simp [Stats.fits, Stats.zero, this]

theorem Past.le_iff {a b : Past} : a.le b = true ↔ a.stats.le b.stats = true ∧ a.frames ≤ b.frames := by
  simp [Past.le]

@[simp] theorem Past.le_refl (a : Past) : a.le a = true := by simp [Past.le]

theorem Past.le_trans {a b c : Past} (h : a.le b = true) (h' : b.le c = true) : a.le c = true := by
  rw [Past.le_iff] at *
  exact ⟨Stats.le_trans h.1 h'.1, h.2.trans h'.2⟩

/-! ## The window of a reader (R206, R60) -/

/-- The present point is the newest of every window. -/
theorem State.window_head (s : State) (agent : Nat) :
    s.window agent = s.now :: s.hist.take (s.hist.length - markOf agent s.marks) := by
  simp [State.window]

/-- The present point is also the newest for `msgs_rcvd`: no frame a reader has seen shuts it out. -/
theorem State.windowMsgs_head (s : State) (r : Reader) :
    s.windowMsgs r = s.now :: (s.hist.take (s.hist.length - markOf r.agent s.marks)).filter
      fun p => min r.seen s.frames ≤ p.frames := by
  rw [State.windowMsgs, State.window_head, List.filter_cons_of_pos]
  exact decide_eq_true (Nat.min_le_right _ _)

/-- What a STAT.READ sees of a counter is in the window (R206). -/
theorem State.pick_mem (s : State) {w : List Past} (h : w ≠ []) (lag : Nat) :
    ∃ p ∈ w, s.pick w lag = p.stats := by
  have hl : 0 < w.length := List.length_pos_of_ne_nil h
  refine ⟨w[min lag (w.length - 1)], List.getElem_mem _, ?_⟩
  rw [State.pick, List.getD_eq_getElem?_getD, List.getElem?_eq_getElem (by omega)]
  rfl

/-- Every value of the window is seen under the lag that is its index. -/
theorem State.pick_eq (s : State) {w : List Past} {k : Nat} (h : k < w.length) :
    s.pick w k = w[k].stats := by
  rw [State.pick, Nat.min_eq_left (by omega), List.getD_eq_getElem?_getD, List.getElem?_eq_getElem h]
  rfl

/-- Each point of a window is seen under some lag. -/
theorem State.pick_of_mem (s : State) {w : List Past} {p : Past} (h : p ∈ w) :
    ∃ k, s.pick w k = p.stats := by
  obtain ⟨k, hk, rfl⟩ := List.getElem_of_mem h
  exact ⟨k, s.pick_eq hk⟩

@[simp] theorem State.pick_window_zero (s : State) (agent : Nat) :
    s.pick (s.window agent) 0 = s.stats := by
  rw [State.window_head, State.pick_eq s (Nat.zero_lt_succ _)]
  rfl

@[simp] theorem State.pick_windowMsgs_zero (s : State) (r : Reader) :
    s.pick (s.windowMsgs r) 0 = s.stats := by
  rw [State.windowMsgs_head, State.pick_eq s (Nat.zero_lt_succ _)]
  rfl

/-! ## Marks -/

theorem markOf_filter (r agent : Nat) (ms : List (Nat × Nat)) (h : r ≠ agent) :
    markOf r (ms.filter (·.1 != agent)) = markOf r ms := by
  induction ms with
  | nil => rfl
  | cons m ms ih =>
    by_cases hm : m.1 = agent
    · have hr : agent ≠ r := fun e => h e.symm
      simp [hm, markOf, hr, ih]
    · simp [hm, markOf, ih]

/-- A STAT.READ moves its own agent's mark to now and no other's. -/
theorem State.markOf_setMark (s : State) (agent r : Nat) :
    markOf r (s.setMark agent).marks = if r = agent then s.hist.length else markOf r s.marks := by
  by_cases h : r = agent
  · simp [markOf, h]
  · have h' : agent ≠ r := fun e => h e.symm
    simp [markOf, h, h', markOf_filter r agent _ h]

end Sys2Proof.Machine
end

