-- ==== Sys2Proof/Laws/Crc.lean ====
section
/-! SUPPORT. The CRC register: linear, invertible when the polynomial has its constant term, and
continued across an append (R112, R115, R117). -/

namespace Sys2Proof.Machine

theorem crcReg_append (cfg : Cfg) (c : BitVec 16) (xs ys : List Byte) :
    crcReg cfg c (xs ++ ys) = crcReg cfg (crcReg cfg c xs) ys := by
  simp [crcReg]

@[simp] theorem crcReg_nil (cfg : Cfg) (c : BitVec 16) : crcReg cfg c [] = c := rfl

@[simp] theorem crcReg_cons (cfg : Cfg) (c : BitVec 16) (b : Byte) (bs : List Byte) :
    crcReg cfg c (b :: bs) = crcReg cfg (crcByte cfg c b) bs := rfl

@[simp] theorem crcFinal_plain (cfg : Cfg) (c : BitVec 16) (h : cfg.crcReflect = false)
    (h' : cfg.crcXorout = 0) : crcFinal cfg c = c := by
  simp [crcFinal, h, h']

/-- One shift is linear over XOR (R117). -/
theorem crcBit_xor (poly a b : BitVec 16) : crcBit poly (a ^^^ b) = crcBit poly a ^^^ crcBit poly b := by
  unfold crcBit
  rw [BitVec.getLsbD_xor, BitVec.shiftLeft_xor_distrib]
  generalize a <<< 1 = x
  generalize b <<< 1 = y
  have h : x ^^^ poly ^^^ (y ^^^ poly) = x ^^^ y := by
    rw [BitVec.xor_comm y poly, ← BitVec.xor_assoc, BitVec.xor_assoc x, BitVec.xor_self,
      BitVec.xor_zero]
  cases a.getLsbD 15 <;> cases b.getLsbD 15
  · rfl
  · exact BitVec.xor_assoc x y poly
  · show x ^^^ y ^^^ poly = x ^^^ poly ^^^ y
    rw [BitVec.xor_assoc, BitVec.xor_comm y, ← BitVec.xor_assoc]
  · exact h.symm

theorem crcShift8_xor (poly a b : BitVec 16) :
    crcShift8 poly (a ^^^ b) = crcShift8 poly a ^^^ crcShift8 poly b := by
  simp only [crcShift8, crcBit_xor]

@[simp] theorem crcBit_zero (poly : BitVec 16) : crcBit poly 0#16 = 0#16 := by simp [crcBit]

@[simp] theorem crcShift8_zero (poly : BitVec 16) : crcShift8 poly 0#16 = 0#16 := by simp [crcShift8]

/-- With the polynomial's constant term one shift loses nothing: only zero goes to zero. -/
theorem crcBit_eq_zero {poly c : BitVec 16} (hp : poly.getLsbD 0 = true) (h : crcBit poly c = 0) : c = 0 := by
  have hbit : ∀ i, (crcBit poly c).getLsbD i = false := fun i => by simp [h]
  unfold crcBit at hbit
  by_cases hc : c.getLsbD 15 = true
  · exfalso
    have h0 := hbit 0
    rw [if_pos hc, BitVec.getLsbD_xor, hp] at h0
    simp at h0
  · simp only [hc] at hbit
    apply BitVec.eq_of_getLsbD_eq
    intro i hi
    by_cases h15 : i = 15
    · subst h15; simpa using hc
    · have := hbit (i + 1)
      simp at this
      simpa using this (by omega)

theorem crcShift8_eq_zero {poly c : BitVec 16} (hp : poly.getLsbD 0 = true) (h : crcShift8 poly c = 0) :
    c = 0 := by
  unfold crcShift8 at h
  iterate 8 replace h := crcBit_eq_zero hp h
  exact h

/-- A byte enters linearly: the register's part and the byte's part (R117). -/
theorem crcByte_split (cfg : Cfg) (c : BitVec 16) (b : Byte) :
    crcByte cfg c b = crcShift8 cfg.crcPoly c ^^^ crcByte cfg 0 b := by
  simp [crcByte, crcShift8_xor]

end Sys2Proof.Machine
end

