-- ==== Sys2Proof/Laws/Memory.lean ====
section
/-! SUPPORT. The frame buffer: a write to a canonical memory changes one byte and keeps the form. -/

namespace Sys2Proof.Machine

theorem Memory.wfFrom_mono {lo hi : Nat} (h : lo ≤ hi) {m : Memory} (hm : m.wfFrom hi = true) :
    m.wfFrom lo = true := by
  cases m with
  | nil => rfl
  | cons e m =>
    simp only [Memory.wfFrom, Bool.and_eq_true, decide_eq_true_eq] at *
    exact ⟨⟨⟨by omega, hm.1.1.2⟩, hm.1.2⟩, hm.2⟩

/-- Below its first address a canonical memory lists nothing. -/
theorem Memory.read_below {lo a : Nat} {m : Memory} (hm : m.wfFrom lo = true) (h : a < lo) :
    m.read a = Memory.unlisted := by
  induction m generalizing lo with
  | nil => rfl
  | cons e m ih =>
    obtain ⟨k, v⟩ := e
    simp only [Memory.wfFrom, Bool.and_eq_true, decide_eq_true_eq] at hm
    have hk : k ≠ a := by omega
    simp only [Memory.read, hk, if_false]
    exact ih hm.2 (by omega)

theorem Memory.read_entry (a x : Nat) (b : Byte) (m : Memory) (h : m.read a = Memory.unlisted) :
    (Memory.entry a b m).read x = if x = a then b else m.read x := by
  unfold Memory.entry
  split
  · next hb =>
    split
    · next hx => rw [hx, h, hb]
    · rfl
  · by_cases hx : a = x <;> simp [Memory.read, hx, eq_comm]

theorem Memory.wfFrom_entry {lo a : Nat} {b : Byte} {m : Memory} (hl : lo ≤ a) (ha : a < Config.bufSize)
    (hm : m.wfFrom (a + 1) = true) : (Memory.entry a b m).wfFrom lo = true := by
  unfold Memory.entry
  split
  · exact Memory.wfFrom_mono (by omega) hm
  · next hb => simp [Memory.wfFrom, hl, ha, hm, hb]

/-- Read after write, from any address on. -/
theorem Memory.read_write_from {lo : Nat} {m : Memory} (hm : m.wfFrom lo = true) (a x : Nat) (b : Byte) :
    (m.write a b).read x = if x = a then b else m.read x := by
  induction m generalizing lo with
  | nil => exact Memory.read_entry a x b [] rfl
  | cons e m ih =>
    obtain ⟨k, v⟩ := e
    have hm' := hm
    simp only [Memory.wfFrom, Bool.and_eq_true, decide_eq_true_eq] at hm
    unfold Memory.write
    split
    · next h =>
      refine Memory.read_entry a x b _ ?_
      have : k ≠ a := by omega
      simp only [Memory.read, this, if_false]
      exact Memory.read_below hm.2 (by omega)
    · split
      · next h1 h2 =>
        subst h2
        rw [Memory.read_entry a x b m (Memory.read_below hm.2 (by omega))]
        by_cases hx : x = a
        · simp [hx]
        · have : a ≠ x := fun h => hx h.symm
          simp [Memory.read, hx, this]
      · next h1 h2 =>
        simp only [Memory.read, ih hm.2]
        by_cases hk : k = x
        · subst hk
          have : k ≠ a := fun h => h2 h.symm
          simp [this]
        · simp [hk]

/-- A write keeps the canonical form, from any address on. -/
theorem Memory.wfFrom_write {lo a : Nat} {m : Memory} (hm : m.wfFrom lo = true) (hl : lo ≤ a)
    (ha : a < Config.bufSize) (b : Byte) : (m.write a b).wfFrom lo = true := by
  induction m generalizing lo with
  | nil => exact Memory.wfFrom_entry hl ha rfl
  | cons e m ih =>
    obtain ⟨k, v⟩ := e
    have hm' := hm
    simp only [Memory.wfFrom, Bool.and_eq_true, decide_eq_true_eq] at hm
    unfold Memory.write
    split
    · next h =>
      refine Memory.wfFrom_entry hl ha ?_
      simp only [Memory.wfFrom, Bool.and_eq_true, decide_eq_true_eq]
      exact ⟨⟨⟨by omega, hm.1.1.2⟩, hm.1.2⟩, hm.2⟩
    · split
      · next h1 h2 => subst h2; exact Memory.wfFrom_entry hl ha hm.2
      · next h1 h2 =>
        simp only [Memory.wfFrom, Bool.and_eq_true, decide_eq_true_eq]
        exact ⟨hm.1, ih hm.2 (by omega)⟩

/-- Reading a byte after a write to a canonical buffer. -/
theorem Memory.read_write {m : Memory} (hm : m.wf = true) (a x : Nat) (b : Byte) :
    (m.write a b).read x = if x = a then b else m.read x := Memory.read_write_from hm a x b

/-- A write inside the buffer keeps the canonical form. -/
theorem Memory.wf_write {m : Memory} (hm : m.wf = true) {a : Nat} (ha : a < 262) (b : Byte) :
    (m.write a b).wf = true := Memory.wfFrom_write hm (Nat.zero_le _) ha b

/-- The empty buffer of State.reset is canonical. -/
theorem Memory.wf_nil : Memory.wf [] = true := rfl

@[simp] theorem Memory.slice_length (m : Memory) (a n : Nat) : (m.slice a n).length = n := by
  simp [Memory.slice]

/-- A slice depends on the bytes in it alone. -/
theorem Memory.slice_congr {m : Memory} {f : Nat → Byte} {a n : Nat}
    (h : ∀ x, a ≤ x → x < a + n → m.read x = f x) :
    m.slice a n = (List.range n).map fun i => f (a + i) := by
  refine List.map_congr_left fun i hi => ?_
  exact h _ (by omega) (by have := List.mem_range.mp hi; omega)

/-- `MemRead(a, 2)` is the byte at the lower index plus 256 times the other (R53). -/
theorem Memory.readLe_two (m : Memory) (a : Nat) :
    m.readLe a 2 = (m.read a).toNat + 256 * (m.read (a + 1)).toNat := by
  simp [Memory.readLe, Memory.slice, List.range_succ, unle]

end Sys2Proof.Machine
end

