-- ==== Sys2Proof/Laws/Exec.lean ====
section
/-! SUPPORT. For each shared operation one lemma that says everything it can do. -/

namespace Sys2Proof.Machine

/-! ## The decode multiplexer -/

/-- `deliver`, for its own type's id: a DecodingError or a dispatch (R140). -/
theorem deliver_cases (c : Cfg) (ty : MsgType) (inst : U16) (body : List Byte)
    (decoder : List Byte → Message) :
    (body.length < ty.size c ∧ ∀ s, deliver c ty inst body decoder s =
      failDecode c (.decodingError (c.idTable ty) inst body.length (ty.size c)) s) ∨
    (ty.size c ≤ body.length ∧ ∀ s, deliver c ty inst body decoder s =
      dispatchMsg (c.idTable ty) inst (decoder (body.take (ty.size c))) s) := by
  by_cases h : body.length < ty.size c
  · exact .inl ⟨h, fun s => by simp [deliver, h]⟩
  · exact .inr ⟨Nat.le_of_not_lt h, fun s => by simp [deliver, h]⟩

/-- The machine's exec is an instruction's effect under its configuration (R32). -/
theorem exec_eq_perform (i : Instr) (s : State) : exec i s = perform cfg i s := by
  cases i <;> rfl

/-- The machine's step is the step under its configuration (R32). -/
theorem step_eq_stepUnder (s : State) : step s = stepUnder cfg s := by
  unfold step stepUnder
  cases s.fetch with
  | none => rfl
  | some p =>
    obtain ⟨op, t⟩ := p
    show (match decode ⟨s.state, op⟩ with
      | .ok i => exec i t
      | .error e => Host.Outcome.refused (Refusal.undecodable e)) =
        match decode ⟨s.state, op⟩ with
        | .ok i => perform cfg i t
        | .error e => Host.Outcome.refused (Refusal.undecodable e)
    simp only [exec_eq_perform]

/-- The instruction a type id selects runs the multiplexer's entry for that id (R92, R140). -/
theorem perform_decodeFrameType (c : Cfg) (t : Byte) (inst : U16) (body : List Byte) (s : State) :
    perform c (decodeFrameTypeUnder c.idTable t inst body) s = codecPort (dec c t inst body) s := by
  unfold decodeFrameTypeUnder dec
  cases c.idTable.typeOf t with
  | none => rfl
  | some ty => cases ty <;> rfl

/-- The same under the machine's configuration. -/
theorem exec_decodeFrameType (t : Byte) (inst : U16) (body : List Byte) (s : State) :
    exec (decodeFrameType t inst body) s = codecPort (dec cfg t inst body) s := by
  rw [exec_eq_perform]
  exact perform_decodeFrameType cfg t inst body s

/-- Everything `DEC` can do (R140, R143): one dispatch, or one report with `dropped`; which of the two
and of what does not depend on the state. -/
theorem dec_cases (c : Cfg) (t : Byte) (inst : U16) (body : List Byte) :
    (∃ m, ∀ s, dec c t inst body s = dispatchMsg t inst m s) ∨
    (∃ r, (r = .unknownType t inst ∨ ∃ n, r = .decodingError t inst body.length n) ∧
      ∀ s, dec c t inst body s = failDecode c r s) := by
  unfold dec
  cases h : c.idTable.typeOf t with
  | none => exact .inr ⟨_, .inl rfl, fun _ => rfl⟩
  | some ty =>
    have hid := IdTable.id_of_typeOf h
    subst hid
    cases ty
    case request => exact .inr ⟨_, .inl rfl, fun _ => rfl⟩
    all_goals
      first
      | rcases deliver_cases c _ inst body _ with ⟨-, e⟩ | ⟨-, e⟩
        · exact .inr ⟨_, .inr ⟨_, rfl⟩, e⟩
        · exact .inl ⟨_, e⟩

/-- An operation at the codec's port: ignored while not connected, run otherwise. -/
theorem codecPort_eq (run : State → State) (s : State) :
    codecPort run s = .next (if s.connected then run s.record else s.finish .ignored) := by
  unfold codecPort
  split <;> rfl

/-! ## The frame parser -/

/-- RX.BYTE's common part (R120). -/
theorem rxByteCommon_next {c : Cfg} {arm : State → Host.Outcome State Fault Refusal} {s t : State} :
    rxByteCommon c arm s = .next t ↔
      (s.connected = false ∧ t = s.finish .ignored) ∨
      (s.connected = true ∧ arm (s.record.bumpBytesRcvd c) = .next t) := by
  unfold rxByteCommon
  cases s.connected <;> simp [eq_comm]

/-- An arm that stores at `cursor` (R127, R128, R130). -/
theorem rxPush_next {b : Byte} {rest : State → State} {s t : State} :
    rxPush b rest s = .next t ↔ s.cursor.toNat < 262 ∧ t = rest (s.push b) := by
  unfold rxPush State.canPush
  have hb : Config.bufSize = 262 := rfl
  by_cases h : s.cursor.toNat < 262 <;> simp [hb, h, eq_comm]

/-- Everything `VERIFY` can do (R131). -/
theorem verify_cases (c : Cfg) (s : State) :
    verify c s = (s.bumpBadCrc c).finish .badCrc ∨
    ∃ inst body, verify c s = dec c (s.buf.read 1) inst body (s.bumpMsgsRcvd c) := by
  simp only [verify]
  split
  · exact .inl rfl
  · exact .inr ⟨_, _, rfl⟩

/-- The three ends of VERIFY, for a property of the state it leaves (R131). -/
theorem verify_induct {c : Cfg} {s : State} {P : State → Prop} (bad : P ((s.bumpBadCrc c).finish .badCrc))
    (good : ∀ t inst m, P (dispatchMsg t inst m (s.bumpMsgsRcvd c)))
    (drop : ∀ t inst r, (r = .unknownType t inst ∨ ∃ k n, r = .decodingError t inst k n) →
      P (failDecode c r (s.bumpMsgsRcvd c))) : P (verify c s) := by
  rcases verify_cases c s with e | ⟨inst, body, e⟩
  · exact e ▸ bad
  · rw [e]
    rcases dec_cases c (s.buf.read 1) inst body with ⟨m, e⟩ | ⟨r, hr, e⟩ <;> rw [e]
    · exact good _ _ _
    · exact drop _ _ _ (hr.imp_right fun ⟨n, h⟩ => ⟨_, n, h⟩)

/-- VERIFY leaves `buf`, `connected`, `tx`, `hist`, `marks` and `pending` as they are. -/
theorem verify_frame (c : Cfg) (s : State) :
    (verify c s).buf = s.buf ∧ (verify c s).connected = s.connected ∧ (verify c s).tx = s.tx ∧
    (verify c s).hist = s.hist ∧ (verify c s).marks = s.marks ∧ (verify c s).pending = s.pending := by
  refine verify_induct (c := c) (P := fun t => t.buf = s.buf ∧ t.connected = s.connected ∧ t.tx = s.tx ∧
    t.hist = s.hist ∧ t.marks = s.marks ∧ t.pending = s.pending) ?_ ?_ ?_
  · exact ⟨rfl, rfl, rfl, rfl, rfl, rfl⟩
  · intros; exact ⟨rfl, rfl, rfl, rfl, rfl, rfl⟩
  · intros; exact ⟨rfl, rfl, rfl, rfl, rfl, rfl⟩

/-! ## The encoders and the command port -/

/-- An encoder's whole effect is its outcome (R170). -/
theorem returnBody_cases (t : Byte) (r : Except Field (List Byte)) (s : State) :
    (∃ body, r = .ok body ∧ returnBody t r s = s.finish (.encoded t body)) ∨
    (∃ f, r = .error f ∧ returnBody t r s = s.finish (.encodingError f)) := by
  cases r with
  | ok body => exact .inl ⟨body, rfl, rfl⟩
  | error f => exact .inr ⟨f, rfl, rfl⟩

/-- Everything TX.SEND can do (R190). -/
theorem execTxSend_cases (c : Cfg) (m : Message) (inst : Int) (s : State) :
    (s.connected = false ∧ execTxSendUnder c m inst s = .next (s.finish .notConnected)) ∨
    (s.connected = true ∧ ∃ f, sendBody c m = .error f ∧
      execTxSendUnder c m inst s = .next (s.finish (.encodingError f))) ∨
    (s.connected = true ∧ ∃ body, encodeBody c m = .ok body ∧ instFits inst = false ∧
      execTxSendUnder c m inst s = .next (s.finish (.encodingError .inst))) ∨
    (s.connected = true ∧ ∃ body, encodeBody c m = .ok body ∧ instFits inst = true ∧
      execTxSendUnder c m inst s =
        .next (sendFrame c (buildFrame c (c.idTable m.type) (BitVec.ofInt 16 inst) body) s)) := by
  unfold execTxSendUnder
  cases hc : s.connected with
  | false => exact .inl ⟨rfl, by simp⟩
  | true =>
    cases he : sendBody c m with
    | error f => exact .inr (.inl ⟨rfl, f, rfl, by simp⟩)
    | ok body =>
      cases hi : instFits inst with
      | false => exact .inr (.inr (.inl ⟨rfl, body, sendBody_ok.mp he, rfl, by simp⟩))
      | true => exact .inr (.inr (.inr ⟨rfl, body, sendBody_ok.mp he, rfl, by simp⟩))

/-- CONNECT (R201). -/
theorem execConnect_cases (ok : Bool) (s : State) :
    (s.connected = true ∧ execConnect ok s = .next (s.finish .alreadyConnected)) ∨
    (s.connected = false ∧ ok = true ∧ execConnect ok s = .next ((s.restart true).finish .connected)) ∨
    (s.connected = false ∧ ok = false ∧ execConnect ok s = .next (s.finish .connectionFailure)) := by
  unfold execConnect
  cases s.connected <;> cases ok <;> simp

/-- CRC16 at the port (R110). -/
theorem execCrc16_next {c : Cfg} {bytes : List Byte} {n : Nat} {i : BitVec 16} {s t : State} :
    execCrc16Under c bytes n i s = .next t ↔
      n ≤ bytes.length ∧ t = s.finish (.crc (crc16 c bytes n i)) := by
  unfold execCrc16Under
  by_cases h : n ≤ bytes.length <;> simp [h, eq_comm]

/-! ## Every instruction -/

/-- The parser after a header byte: stored at a fixed index (R121 to R126). -/
def State.afterStore (cf : Cfg) (s : State) (a : Nat) (b : Byte) (c : BitVec 9) (st : Nat) : State :=
  ((s.record.bumpBytesRcvd cf).storeAt a b c st).finish .accepted

/-- The state in which RX.CRCHI calls VERIFY (R130). -/
def State.atVerify (c : Cfg) (s : State) (b : Byte) : State := (s.record.bumpBytesRcvd c).push b

/-- The instructions of formats FSM and FRAME: what the receive side runs. -/
def isInput (i : Instr) : Bool := (encode i).fmt == .fsm || (encode i).fmt == .frame

theorem isInput_decodeFrameType (tab : IdTable) (t : Byte) (inst : U16) (body : List Byte) :
    isInput (decodeFrameTypeUnder tab t inst body) = true := by
  unfold decodeFrameTypeUnder
  split <;> rfl

/-- Everything an instruction can do under a configuration when it answers a next state. -/
inductive Effect (c : Cfg) (s : State) : Instr → State → Prop
  /-- a byte or a decoder while not connected: an outcome and nothing else, as in the next four -/
  | ignored (i : Instr) (hi : isInput i = true) (h : s.connected = false) : Effect c s i (s.finish .ignored)
  | encode (i : Instr) (m : Message) (r : OpResult) (hi : i = encodeInstr m)
      (hr : (∃ t body, r = .encoded t body) ∨ ∃ f, r = .encodingError f) : Effect c s i (s.finish r)
  | notSent (m : Message) (inst : Int) (r : OpResult)
      (hr : (s.connected = false ∧ r = .notConnected) ∨
        (s.connected = true ∧ ∃ f, r = .encodingError f)) :
      Effect c s (.txSend m inst) (s.finish r)
  | notOpened (openOk : Bool) (r : OpResult)
      (hr : (s.connected = true ∧ r = .alreadyConnected) ∨
        (s.connected = false ∧ openOk = false ∧ r = .connectionFailure)) :
      Effect c s (.connect openOk) (s.finish r)
  | crc (bytes : List Byte) (n : Nat) (init : BitVec 16) (h : n ≤ bytes.length) :
      Effect c s (.crc16 bytes n init) (s.finish (.crc (crc16 c bytes n init)))
  | read (reader : Reader) (lag : Lag) :
      Effect c s (.statRead reader lag)
        ((s.setMark reader.agent).finish (.stats (s.statsSeen reader lag)))
  | reset : Effect c s .reset ((s.restart false).finish .done)
  | connect (h : s.connected = false) : Effect c s (.connect true) ((s.restart true).finish .connected)
  | disconnect : Effect c s .disconnect ((s.restart false).finish (.closed s.connected))
  | send (m : Message) (inst : Int) (f : List Byte) (h : s.connected = true) :
      Effect c s (.txSend m inst) (sendFrame c f s)
  | dispatch (i : Instr) (t : Byte) (inst : U16) (body : List Byte) (m : Message)
      (hi : i = decodeFrameTypeUnder c.idTable t inst body) (h : s.connected = true) :
      Effect c s i (dispatchMsg t inst m s.record)
  | fail (i : Instr) (t : Byte) (inst : U16) (body : List Byte) (r : OpResult)
      (hi : i = decodeFrameTypeUnder c.idTable t inst body) (h : s.connected = true)
      (hr : r = .unknownType t inst ∨ ∃ n, r = .decodingError t inst body.length n) :
      Effect c s i (failDecode c r s.record)
  | unknown (t : Byte) (inst : U16) (h : s.connected = true) :
      Effect c s (.decUnknown t inst) (failDecode c (.unknownType t inst) s.record)
  | wait (h : s.connected = true) : Effect c s .rxWait (s.afterStore c 0 Config.startByte 1 1)
  | noise (b : Byte) (h : s.connected = true) :
      Effect c s (.rxNoise b) ((s.record.bumpBytesRcvd c).finish .noise)
  | type (b : Byte) (h : s.connected = true) : Effect c s (.rxType b) (s.afterStore c 1 b 2 2)
  | instlo (b : Byte) (h : s.connected = true) : Effect c s (.rxInstlo b) (s.afterStore c 2 b 3 3)
  | insthi (b : Byte) (h : s.connected = true) : Effect c s (.rxInsthi b) (s.afterStore c 3 b 4 4)
  | len (b : Byte) (h : s.connected = true) :
      Effect c s (.rxLen b) ((s.setLen b).afterStore c 4 b 5 (if b = 0 then 6 else 5))
  | body (b : Byte) (h : s.connected = true) (hc : s.cursor.toNat < 262) :
      Effect c s (.rxBody b) (((s.atVerify c b).setState
        (if (s.cursor + 1).toNat = 5 + s.len.toNat then 6 else 5)).finish .accepted)
  | crclo (b : Byte) (h : s.connected = true) (hc : s.cursor.toNat < 262) :
      Effect c s (.rxCrclo b) (((s.atVerify c b).setState 7).finish .accepted)
  | crchi (b : Byte) (h : s.connected = true) (hc : s.cursor.toNat < 262) :
      Effect c s (.rxCrchi b) (verify c (s.atVerify c b)).idleParser
  | badstate (st : Nat) (b : Byte) (h : s.connected = true) :
      Effect c s (.rxBadstate st b) ((s.record.bumpBytesRcvd c).idleParser.finish .stateCorrupt)

/-- The effects of a decoder selected by its type id. -/
theorem effect_of_decodeFrameType {c : Cfg} {t : Byte} {inst : U16} {body : List Byte} {s u : State}
    (h : perform c (decodeFrameTypeUnder c.idTable t inst body) s = .next u) :
    Effect c s (decodeFrameTypeUnder c.idTable t inst body) u := by
  rw [perform_decodeFrameType, codecPort_eq] at h
  cases hc : s.connected with
  | false => simp only [hc] at h; cases h; exact .ignored _ (isInput_decodeFrameType ..) hc
  | true =>
    simp only [hc, if_true] at h
    rcases dec_cases c t inst body with ⟨m, e⟩ | ⟨r, hr, e⟩ <;> rw [e] at h <;> cases h
    · exact .dispatch _ t inst body m rfl hc
    · exact .fail _ t inst body r rfl hc hr

/-- The effects of the decoder of a type, in a table without shared ids. -/
theorem effect_of_type {c : Cfg} (hid : Function.Injective c.idTable) {ty : MsgType} {i : Instr}
    {inst : U16} {body : List Byte} {s u : State} (hr : ty ≠ .request)
    (hi : decodeFrameType ty.id inst body = i) (h : perform c i s = .next u) : Effect c s i u := by
  subst hi
  rw [← decodeFrameTypeUnder_id hid hr] at h ⊢
  exact effect_of_decodeFrameType h

/-- The effects of an arm of RX.BYTE. -/
theorem effect_of_rxByteCommon {c : Cfg} {arm : State → Host.Outcome State Fault Refusal} {i : Instr}
    {s t : State} (h : rxByteCommon c arm s = .next t)
    (run : s.connected = true → arm (s.record.bumpBytesRcvd c) = .next t → Effect c s i t)
    (hi : isInput i = true := by rfl) : Effect c s i t := by
  rcases rxByteCommon_next.mp h with ⟨hc, rfl⟩ | ⟨hc, h⟩
  · exact .ignored _ hi hc
  · exact run hc h

/-- What an instruction does is one of the effects. -/
theorem perform_effect {c : Cfg} (hid : Function.Injective c.idTable) {i : Instr} {s t : State}
    (h : perform c i s = .next t) : Effect c s i t := by
  have enc : ∀ (m : Message) {ty r}, i = encodeInstr m →
      Host.Outcome.next (returnBody ty r s) = (.next t : Host.Outcome State Fault Refusal) →
      Effect c s i t := by
    intro m ty r hi h
    cases h
    rcases returnBody_cases ty r s with ⟨body, -, e⟩ | ⟨f, -, e⟩ <;> rw [e]
    · exact .encode i m _ hi (.inl ⟨ty, body, rfl⟩)
    · exact .encode i m _ hi (.inr ⟨f, rfl⟩)
  cases i with
  | rxWait => exact effect_of_rxByteCommon h fun hc h => by cases h; exact .wait hc
  | rxNoise b =>
    exact effect_of_rxByteCommon (arm := fun s => .next (s.finish .noise)) h fun hc h => by
      cases h; exact .noise b hc
  | rxType b => exact effect_of_rxByteCommon h fun hc h => by cases h; exact .type b hc
  | rxInstlo b => exact effect_of_rxByteCommon h fun hc h => by cases h; exact .instlo b hc
  | rxInsthi b => exact effect_of_rxByteCommon h fun hc h => by cases h; exact .insthi b hc
  | rxLen b =>
    exact effect_of_rxByteCommon
      (arm := fun s => rxStore 4 b 5 (if b = 0 then 6 else 5) (s.setLen b)) h fun hc h => by
        cases h; exact .len b hc
  | rxBody b =>
    exact effect_of_rxByteCommon h fun hc h => by
      obtain ⟨hl, rfl⟩ := rxPush_next.mp h; exact .body b hc hl
  | rxCrclo b =>
    exact effect_of_rxByteCommon h fun hc h => by
      obtain ⟨hl, rfl⟩ := rxPush_next.mp h; exact .crclo b hc hl
  | rxCrchi b =>
    exact effect_of_rxByteCommon h fun hc h => by
      obtain ⟨hl, rfl⟩ := rxPush_next.mp h; exact .crchi b hc hl
  | rxBadstate st b =>
    exact effect_of_rxByteCommon
      (arm := fun s => .next (s.idleParser.finish .stateCorrupt)) h fun hc h => by
        cases h; exact .badstate st b hc
  | decAssertMessage inst body => exact effect_of_type hid (ty := .assertMessage) (by decide) rfl h
  | decDebugMessage inst body => exact effect_of_type hid (ty := .debugMessage) (by decide) rfl h
  | decCaptureData inst body => exact effect_of_type hid (ty := .captureData) (by decide) rfl h
  | decDrivingCommand inst body => exact effect_of_type hid (ty := .drivingCommand) (by decide) rfl h
  | decCaptureCommand inst body => exact effect_of_type hid (ty := .captureCommand) (by decide) rfl h
  | decStatusData inst body => exact effect_of_type hid (ty := .statusData) (by decide) rfl h
  | decModes inst body => exact effect_of_type hid (ty := .modes) (by decide) rfl h
  | decRobotCommand inst body => exact effect_of_type hid (ty := .robotCommand) (by decide) rfl h
  | decWave inst body => exact effect_of_type hid (ty := .wave) (by decide) rfl h
  | decPidParams inst body => exact effect_of_type hid (ty := .pidParams) (by decide) rfl h
  | decTaskTimingResult inst body => exact effect_of_type hid (ty := .taskTimingResult) (by decide) rfl h
  | decUnknown ty inst =>
    have h' : codecPort (decUnknown c ty inst) s = .next t := h
    rw [codecPort_eq] at h'
    cases hc : s.connected <;> simp only [hc] at h' <;> cases h'
    · exact .ignored _ rfl hc
    · exact .unknown ty inst hc
  | encAssertMessage m => exact enc (.assertMessage m) rfl h
  | encDebugMessage m => exact enc (.debugMessage m) rfl h
  | encCaptureData m => exact enc (.captureData m) rfl h
  | encDrivingCommand m => exact enc (.drivingCommand m) rfl h
  | encCaptureCommand m => exact enc (.captureCommand m) rfl h
  | encStatusData m => exact enc (.statusData m) rfl h
  | encModes m => exact enc (.modes m) rfl h
  | encRobotCommand m => exact enc (.robotCommand m) rfl h
  | encWave m => exact enc (.wave m) rfl h
  | encPidParams m => exact enc (.pidParams m) rfl h
  | encRequest m => exact enc (.request m) rfl h
  | encTaskTimingResult m => exact enc (.taskTimingResult m) rfl h
  | reset => cases h; exact .reset
  | connect ok =>
    rcases execConnect_cases ok s with ⟨hc, e⟩ | ⟨hc, rfl, e⟩ | ⟨hc, ho, e⟩ <;>
      cases (e.symm.trans h : Host.Outcome.next _ = Host.Outcome.next _)
    · exact .notOpened ok _ (.inl ⟨hc, rfl⟩)
    · exact .connect hc
    · exact .notOpened ok _ (.inr ⟨hc, ho, rfl⟩)
  | disconnect => cases h; exact .disconnect
  | txSend m inst =>
    rcases execTxSend_cases c m inst s with ⟨hc, e⟩ | ⟨hc, f, -, e⟩ | ⟨hc, _, -, -, e⟩ | ⟨hc, _, -, -, e⟩ <;>
      cases (e.symm.trans h : Host.Outcome.next _ = Host.Outcome.next _)
    · exact .notSent m inst _ (.inl ⟨hc, rfl⟩)
    · exact .notSent m inst _ (.inr ⟨hc, f, rfl⟩)
    · exact .notSent m inst _ (.inr ⟨hc, _, rfl⟩)
    · exact .send m inst _ hc
  | statRead reader lag => cases h; exact .read reader lag
  | crc16 bytes n init => obtain ⟨hn, rfl⟩ := execCrc16_next.mp h; exact .crc bytes n init hn

/-- The same for the machine's exec. -/
theorem exec_effect {i : Instr} {s t : State} (h : exec i s = .next t) : Effect cfg s i t :=
  perform_effect MsgType.id_injective (exec_eq_perform i s ▸ h)

end Sys2Proof.Machine
end

