-- ==== Sys2Proof/Laws/Parser.lean ====
section
/-! SUPPORT. What one RX.BYTE does in each state of the parser, and RX.CHUNK over an append. -/

namespace Sys2Proof.Machine

theorem rxByteCommon_live {c : Cfg} {arm : State → Host.Outcome State Fault Refusal} {s : State}
    (hc : s.connected = true) : rxByteCommon c arm s = arm (s.record.bumpBytesRcvd c) := by
  simp [rxByteCommon, hc]

theorem rxPush_ok {b : Byte} {rest : State → State} {s : State} (h : s.cursor.toNat < 262) :
    rxPush b rest s = .next (rest (s.push b)) := rxPush_next.mpr ⟨h, rfl⟩

/-- What RX.BYTE does while connected, by the parser's state and the byte. -/
inductive Moved (c : Cfg) (s : State) (b : Byte) : State → Prop
  | wait (hs : s.state = 0) (hb : b = 0xFE) : Moved c s b (s.afterStore c 0 Config.startByte 1 1)
  | noise (hs : s.state = 0) (hb : b ≠ 0xFE) : Moved c s b ((s.record.bumpBytesRcvd c).finish .noise)
  | type (hs : s.state = 1) : Moved c s b (s.afterStore c 1 b 2 2)
  | instlo (hs : s.state = 2) : Moved c s b (s.afterStore c 2 b 3 3)
  | insthi (hs : s.state = 3) : Moved c s b (s.afterStore c 3 b 4 4)
  | len (hs : s.state = 4) :
      Moved c s b ((s.setLen b).afterStore c 4 b 5 (if b = 0 then 6 else 5))
  | body (hs : s.state = 5) (hc : s.cursor.toNat < 262) :
      Moved c s b (((s.atVerify c b).setState
        (if (s.cursor + 1).toNat = 5 + s.len.toNat then 6 else 5)).finish .accepted)
  | crclo (hs : s.state = 6) (hc : s.cursor.toNat < 262) :
      Moved c s b (((s.atVerify c b).setState 7).finish .accepted)
  | crchi (hs : s.state = 7) (hc : s.cursor.toNat < 262) :
      Moved c s b (verify c (s.atVerify c b)).idleParser
  | badstate (hs : 8 ≤ s.state) :
      Moved c s b ((s.record.bumpBytesRcvd c).idleParser.finish .stateCorrupt)

/-- The arm the decoder selects in each state. -/
theorem decodeFsm_eq (st : Nat) (b : Byte) :
    (st = 0 ∧ b = 0xFE ∧ decodeFsm st b = .rxWait) ∨
    (st = 0 ∧ b ≠ 0xFE ∧ decodeFsm st b = .rxNoise b) ∨
    (st = 1 ∧ decodeFsm st b = .rxType b) ∨ (st = 2 ∧ decodeFsm st b = .rxInstlo b) ∨
    (st = 3 ∧ decodeFsm st b = .rxInsthi b) ∨ (st = 4 ∧ decodeFsm st b = .rxLen b) ∨
    (st = 5 ∧ decodeFsm st b = .rxBody b) ∨ (st = 6 ∧ decodeFsm st b = .rxCrclo b) ∨
    (st = 7 ∧ decodeFsm st b = .rxCrchi b) ∨
    (8 ≤ st ∧ decodeFsm st b = .rxBadstate st b) := by
  unfold decodeFsm
  split
  · by_cases h : b = 0xFE <;> simp_all
  all_goals simp_all
  omega

/-- RX.BYTE answers a next state exactly as `Moved` says (R120 to R130). -/
theorem rxByteUnder_moved {c : Cfg} {b : Byte} {s t : State} (hc : s.connected = true) :
    rxByteUnder c b s = .next t ↔ Moved c s b t := by
  constructor
  · intro h
    unfold rxByteUnder at h
    rcases decodeFsm_eq s.state b with
      ⟨hs, hb, e⟩ | ⟨hs, hb, e⟩ | ⟨hs, e⟩ | ⟨hs, e⟩ | ⟨hs, e⟩ | ⟨hs, e⟩ | ⟨hs, e⟩ | ⟨hs, e⟩ | ⟨hs, e⟩ | ⟨hs, e⟩ <;>
      rw [e] at h <;>
      simp only [perform, execRxWaitUnder, execRxNoiseUnder, execRxTypeUnder, execRxInstloUnder, execRxInsthiUnder,
        execRxLenUnder, execRxBodyUnder, execRxCrcloUnder, execRxCrchiUnder, execRxBadstateUnder,
        rxByteCommon_live hc] at h
    · cases h; exact .wait hs hb
    · cases h; exact .noise hs hb
    · cases h; exact .type hs
    · cases h; exact .instlo hs
    · cases h; exact .insthi hs
    · cases h; exact .len hs
    · obtain ⟨hl, rfl⟩ := rxPush_next.mp h; exact .body hs hl
    · obtain ⟨hl, rfl⟩ := rxPush_next.mp h; exact .crclo hs hl
    · obtain ⟨hl, rfl⟩ := rxPush_next.mp h; exact .crchi hs hl
    · cases h; exact .badstate hs
  · intro h
    unfold rxByteUnder
    rcases decodeFsm_eq s.state b with
      ⟨hs, hb, e⟩ | ⟨hs, hb, e⟩ | ⟨hs, e⟩ | ⟨hs, e⟩ | ⟨hs, e⟩ | ⟨hs, e⟩ | ⟨hs, e⟩ | ⟨hs, e⟩ | ⟨hs, e⟩ | ⟨hs, e⟩ <;>
      rw [e] <;>
      simp only [perform, execRxWaitUnder, execRxNoiseUnder, execRxTypeUnder, execRxInstloUnder, execRxInsthiUnder,
        execRxLenUnder, execRxBodyUnder, execRxCrcloUnder, execRxCrchiUnder, execRxBadstateUnder,
        rxByteCommon_live hc] <;>
      cases h <;>
      first
      | (exfalso; omega)
      | (exfalso; contradiction)
      | rfl
      | (exact rxPush_ok ‹_›)

/-- RX.BYTE of the machine is RX.BYTE under its configuration. -/
theorem rxByte_eq (b : Byte) (s : State) : rxByte b s = rxByteUnder cfg b s := exec_eq_perform _ s

/-- The same for the machine. -/
theorem rxByte_moved {b : Byte} {s t : State} (hc : s.connected = true) :
    rxByte b s = .next t ↔ Moved cfg s b t := by
  rw [rxByte_eq]
  exact rxByteUnder_moved hc

/-- RX.BYTE while not connected (R120). -/
theorem rxByteUnder_ignored {c : Cfg} {b : Byte} {s : State} (hc : s.connected = false) :
    rxByteUnder c b s = .next (s.finish .ignored) := by
  unfold rxByteUnder
  rcases decodeFsm_eq s.state b with
    ⟨-, -, e⟩ | ⟨-, -, e⟩ | ⟨-, e⟩ | ⟨-, e⟩ | ⟨-, e⟩ | ⟨-, e⟩ | ⟨-, e⟩ | ⟨-, e⟩ | ⟨-, e⟩ | ⟨-, e⟩ <;>
    simp [e, perform, execRxWaitUnder, execRxNoiseUnder, execRxTypeUnder, execRxInstloUnder, execRxInsthiUnder, execRxLenUnder,
      execRxBodyUnder, execRxCrcloUnder, execRxCrchiUnder, execRxBadstateUnder, rxByteCommon, hc]

/-- The same for the machine. -/
theorem rxByte_ignored {b : Byte} {s : State} (hc : s.connected = false) :
    rxByte b s = .next (s.finish .ignored) := by
  rw [rxByte_eq]
  exact rxByteUnder_ignored hc

theorem rxChunk_nil (s : State) : rxChunk [] s = .next s := rfl

theorem rxChunk_cons {b : Byte} {bs : List Byte} {s t : State} :
    rxChunk (b :: bs) s = .next t ↔ ∃ u, rxByte b s = .next u ∧ rxChunk bs u = .next t := by
  simp only [rxChunk]
  cases rxByte b s <;> simp

/-- R62. -/
theorem rxChunk_append {xs ys : List Byte} {s t : State} :
    rxChunk (xs ++ ys) s = .next t ↔ ∃ u, rxChunk xs s = .next u ∧ rxChunk ys u = .next t := by
  induction xs generalizing s with
  | nil => simp [rxChunk_nil]
  | cons b xs ih =>
    simp only [List.cons_append, rxChunk_cons, ih]
    constructor
    · rintro ⟨u, h1, v, h2, h3⟩; exact ⟨v, ⟨u, h1, h2⟩, h3⟩
    · rintro ⟨v, ⟨u, h1, h2⟩, h3⟩; exact ⟨u, h1, v, h2, h3⟩

end Sys2Proof.Machine
end

