-- ==== Sys2Proof/Laws/PerInstr.lean ====
section
/-! SUPPORT. For each instruction: the key of its word is one that the opcode table's row of its
mnemonic covers (R92). -/

namespace Sys2Proof.Laws.TableKey

/-- The table has a row with `i`'s mnemonic, and it covers the key of `i`'s word. -/
def Statement (i : Instr) : Prop :=
  ∃ r ∈ opcodeTable, r.mnemonic = i.mnemonic ∧ r.covers (encode i).fmt (encode i).key = true

/-- The upper half of a key is what a row with a free low byte fixes. -/
theorem key_high (x y : BitVec 8) : (x ++ y) &&& 0xFF00#16 = x ++ 0#8 := by
  apply BitVec.eq_of_getLsbD_eq
  intro i hi
  simp only [BitVec.getLsbD_and, BitVec.getLsbD_append]
  interval_cases i <;> simp

theorem rxWait : Statement .rxWait :=
  ⟨⟨"RX.WAIT", .fsm, 0x00FE, 0xFFFF⟩, List.mem_of_getElem? (i := 0) rfl, rfl, rfl⟩

theorem rxNoise (b : Byte) : Statement (.rxNoise b) :=
  ⟨⟨"RX.NOISE", .fsm, 0x0000, 0xFF00⟩, List.mem_of_getElem? (i := 1) rfl, rfl, by
    simp [Row.covers, encode, encodeUnder, wordFsm, OpWord.fmt, OpWord.key, key_high]⟩

theorem rxType (b : Byte) : Statement (.rxType b) :=
  ⟨⟨"RX.TYPE", .fsm, 0x0100, 0xFF00⟩, List.mem_of_getElem? (i := 2) rfl, rfl, by
    simp [Row.covers, encode, encodeUnder, wordFsm, OpWord.fmt, OpWord.key, key_high]⟩

theorem rxInstlo (b : Byte) : Statement (.rxInstlo b) :=
  ⟨⟨"RX.INSTLO", .fsm, 0x0200, 0xFF00⟩, List.mem_of_getElem? (i := 3) rfl, rfl, by
    simp [Row.covers, encode, encodeUnder, wordFsm, OpWord.fmt, OpWord.key, key_high]⟩

theorem rxInsthi (b : Byte) : Statement (.rxInsthi b) :=
  ⟨⟨"RX.INSTHI", .fsm, 0x0300, 0xFF00⟩, List.mem_of_getElem? (i := 4) rfl, rfl, by
    simp [Row.covers, encode, encodeUnder, wordFsm, OpWord.fmt, OpWord.key, key_high]⟩

theorem rxLen (b : Byte) : Statement (.rxLen b) :=
  ⟨⟨"RX.LEN", .fsm, 0x0400, 0xFF00⟩, List.mem_of_getElem? (i := 5) rfl, rfl, by
    simp [Row.covers, encode, encodeUnder, wordFsm, OpWord.fmt, OpWord.key, key_high]⟩

theorem rxBody (b : Byte) : Statement (.rxBody b) :=
  ⟨⟨"RX.BODY", .fsm, 0x0500, 0xFF00⟩, List.mem_of_getElem? (i := 6) rfl, rfl, by
    simp [Row.covers, encode, encodeUnder, wordFsm, OpWord.fmt, OpWord.key, key_high]⟩

theorem rxCrclo (b : Byte) : Statement (.rxCrclo b) :=
  ⟨⟨"RX.CRCLO", .fsm, 0x0600, 0xFF00⟩, List.mem_of_getElem? (i := 7) rfl, rfl, by
    simp [Row.covers, encode, encodeUnder, wordFsm, OpWord.fmt, OpWord.key, key_high]⟩

theorem rxCrchi (b : Byte) : Statement (.rxCrchi b) :=
  ⟨⟨"RX.CRCHI", .fsm, 0x0700, 0xFF00⟩, List.mem_of_getElem? (i := 8) rfl, rfl, by
    simp [Row.covers, encode, encodeUnder, wordFsm, OpWord.fmt, OpWord.key, key_high]⟩

theorem rxBadstate (st : Nat) (b : Byte) : Statement (.rxBadstate st b) :=
  ⟨⟨"RX.BADSTATE", .fsm, 0x0000, 0x0000⟩, List.mem_of_getElem? (i := 9) rfl, rfl, by
    simp [Row.covers, encode, encodeUnder, wordFsm, OpWord.fmt, OpWord.key]⟩

theorem decAssertMessage (inst : U16) (body : List Byte) : Statement (.decAssertMessage inst body) :=
  ⟨⟨"DEC.AssertMessage", .frame, 0xFE00, 0xFFFF⟩, List.mem_of_getElem? (i := 10) rfl, rfl, by
    simp [Row.covers, encode, encodeUnder, wordFrame, frameHead, OpWord.fmt, OpWord.key, MsgType.id]⟩

theorem decDebugMessage (inst : U16) (body : List Byte) : Statement (.decDebugMessage inst body) :=
  ⟨⟨"DEC.DebugMessage", .frame, 0xFE01, 0xFFFF⟩, List.mem_of_getElem? (i := 11) rfl, rfl, by
    simp [Row.covers, encode, encodeUnder, wordFrame, frameHead, OpWord.fmt, OpWord.key, MsgType.id]⟩

theorem decCaptureData (inst : U16) (body : List Byte) : Statement (.decCaptureData inst body) :=
  ⟨⟨"DEC.CaptureData", .frame, 0xFE02, 0xFFFF⟩, List.mem_of_getElem? (i := 12) rfl, rfl, by
    simp [Row.covers, encode, encodeUnder, wordFrame, frameHead, OpWord.fmt, OpWord.key, MsgType.id]⟩

theorem decDrivingCommand (inst : U16) (body : List Byte) : Statement (.decDrivingCommand inst body) :=
  ⟨⟨"DEC.DrivingCommand", .frame, 0xFE03, 0xFFFF⟩, List.mem_of_getElem? (i := 13) rfl, rfl, by
    simp [Row.covers, encode, encodeUnder, wordFrame, frameHead, OpWord.fmt, OpWord.key, MsgType.id]⟩

theorem decCaptureCommand (inst : U16) (body : List Byte) : Statement (.decCaptureCommand inst body) :=
  ⟨⟨"DEC.CaptureCommand", .frame, 0xFE04, 0xFFFF⟩, List.mem_of_getElem? (i := 14) rfl, rfl, by
    simp [Row.covers, encode, encodeUnder, wordFrame, frameHead, OpWord.fmt, OpWord.key, MsgType.id]⟩

theorem decStatusData (inst : U16) (body : List Byte) : Statement (.decStatusData inst body) :=
  ⟨⟨"DEC.StatusData", .frame, 0xFE05, 0xFFFF⟩, List.mem_of_getElem? (i := 15) rfl, rfl, by
    simp [Row.covers, encode, encodeUnder, wordFrame, frameHead, OpWord.fmt, OpWord.key, MsgType.id]⟩

theorem decModes (inst : U16) (body : List Byte) : Statement (.decModes inst body) :=
  ⟨⟨"DEC.Modes", .frame, 0xFE0E, 0xFFFF⟩, List.mem_of_getElem? (i := 16) rfl, rfl, by
    simp [Row.covers, encode, encodeUnder, wordFrame, frameHead, OpWord.fmt, OpWord.key, MsgType.id]⟩

theorem decRobotCommand (inst : U16) (body : List Byte) : Statement (.decRobotCommand inst body) :=
  ⟨⟨"DEC.RobotCommand", .frame, 0xFE0F, 0xFFFF⟩, List.mem_of_getElem? (i := 17) rfl, rfl, by
    simp [Row.covers, encode, encodeUnder, wordFrame, frameHead, OpWord.fmt, OpWord.key, MsgType.id]⟩

theorem decWave (inst : U16) (body : List Byte) : Statement (.decWave inst body) :=
  ⟨⟨"DEC.Wave", .frame, 0xFE11, 0xFFFF⟩, List.mem_of_getElem? (i := 18) rfl, rfl, by
    simp [Row.covers, encode, encodeUnder, wordFrame, frameHead, OpWord.fmt, OpWord.key, MsgType.id]⟩

theorem decPidParams (inst : U16) (body : List Byte) : Statement (.decPidParams inst body) :=
  ⟨⟨"DEC.PidParams", .frame, 0xFE12, 0xFFFF⟩, List.mem_of_getElem? (i := 19) rfl, rfl, by
    simp [Row.covers, encode, encodeUnder, wordFrame, frameHead, OpWord.fmt, OpWord.key, MsgType.id]⟩

theorem decTaskTimingResult (inst : U16) (body : List Byte) : Statement (.decTaskTimingResult inst body) :=
  ⟨⟨"DEC.TaskTimingResult", .frame, 0xFE14, 0xFFFF⟩, List.mem_of_getElem? (i := 20) rfl, rfl, by
    simp [Row.covers, encode, encodeUnder, wordFrame, frameHead, OpWord.fmt, OpWord.key, MsgType.id]⟩

theorem decUnknown (t : Byte) (inst : U16) : Statement (.decUnknown t inst) :=
  ⟨⟨"DEC.UNKNOWN", .frame, 0xFE00, 0xFF00⟩, List.mem_of_getElem? (i := 21) rfl, rfl, by
    have h := key_high 0xFE t
    simp [Row.covers, encode, encodeUnder, wordFrame, frameHead, OpWord.fmt, OpWord.key, key_high]⟩

theorem encAssertMessage (m : AssertMessage) : Statement (.encAssertMessage m) :=
  ⟨⟨"ENC.AssertMessage", .msg, 0x00, 0xFF⟩, List.mem_of_getElem? (i := 22) rfl, rfl, by
    simp [Row.covers, encode, encodeUnder, wordMsg, OpWord.fmt, OpWord.key, Message.type, MsgType.id]⟩

theorem encDebugMessage (m : DebugMessage) : Statement (.encDebugMessage m) :=
  ⟨⟨"ENC.DebugMessage", .msg, 0x01, 0xFF⟩, List.mem_of_getElem? (i := 23) rfl, rfl, by
    simp [Row.covers, encode, encodeUnder, wordMsg, OpWord.fmt, OpWord.key, Message.type, MsgType.id]⟩

theorem encCaptureData (m : CaptureData) : Statement (.encCaptureData m) :=
  ⟨⟨"ENC.CaptureData", .msg, 0x02, 0xFF⟩, List.mem_of_getElem? (i := 24) rfl, rfl, by
    simp [Row.covers, encode, encodeUnder, wordMsg, OpWord.fmt, OpWord.key, Message.type, MsgType.id]⟩

theorem encDrivingCommand (m : DrivingCommand) : Statement (.encDrivingCommand m) :=
  ⟨⟨"ENC.DrivingCommand", .msg, 0x03, 0xFF⟩, List.mem_of_getElem? (i := 25) rfl, rfl, by
    simp [Row.covers, encode, encodeUnder, wordMsg, OpWord.fmt, OpWord.key, Message.type, MsgType.id]⟩

theorem encCaptureCommand (m : CaptureCommand) : Statement (.encCaptureCommand m) :=
  ⟨⟨"ENC.CaptureCommand", .msg, 0x04, 0xFF⟩, List.mem_of_getElem? (i := 26) rfl, rfl, by
    simp [Row.covers, encode, encodeUnder, wordMsg, OpWord.fmt, OpWord.key, Message.type, MsgType.id]⟩

theorem encStatusData (m : StatusData) : Statement (.encStatusData m) :=
  ⟨⟨"ENC.StatusData", .msg, 0x05, 0xFF⟩, List.mem_of_getElem? (i := 27) rfl, rfl, by
    simp [Row.covers, encode, encodeUnder, wordMsg, OpWord.fmt, OpWord.key, Message.type, MsgType.id]⟩

theorem encModes (m : Modes) : Statement (.encModes m) :=
  ⟨⟨"ENC.Modes", .msg, 0x0E, 0xFF⟩, List.mem_of_getElem? (i := 28) rfl, rfl, by
    simp [Row.covers, encode, encodeUnder, wordMsg, OpWord.fmt, OpWord.key, Message.type, MsgType.id]⟩

theorem encRobotCommand (m : RobotCommand) : Statement (.encRobotCommand m) :=
  ⟨⟨"ENC.RobotCommand", .msg, 0x0F, 0xFF⟩, List.mem_of_getElem? (i := 29) rfl, rfl, by
    simp [Row.covers, encode, encodeUnder, wordMsg, OpWord.fmt, OpWord.key, Message.type, MsgType.id]⟩

theorem encWave (m : Wave) : Statement (.encWave m) :=
  ⟨⟨"ENC.Wave", .msg, 0x11, 0xFF⟩, List.mem_of_getElem? (i := 30) rfl, rfl, by
    simp [Row.covers, encode, encodeUnder, wordMsg, OpWord.fmt, OpWord.key, Message.type, MsgType.id]⟩

theorem encPidParams (m : PidParams) : Statement (.encPidParams m) :=
  ⟨⟨"ENC.PidParams", .msg, 0x12, 0xFF⟩, List.mem_of_getElem? (i := 31) rfl, rfl, by
    simp [Row.covers, encode, encodeUnder, wordMsg, OpWord.fmt, OpWord.key, Message.type, MsgType.id]⟩

theorem encRequest (m : Request) : Statement (.encRequest m) :=
  ⟨⟨"ENC.Request", .msg, 0x13, 0xFF⟩, List.mem_of_getElem? (i := 32) rfl, rfl, by
    simp [Row.covers, encode, encodeUnder, wordMsg, OpWord.fmt, OpWord.key, Message.type, MsgType.id]⟩

theorem encTaskTimingResult (m : TaskTimingResult) : Statement (.encTaskTimingResult m) :=
  ⟨⟨"ENC.TaskTimingResult", .msg, 0x14, 0xFF⟩, List.mem_of_getElem? (i := 33) rfl, rfl, by
    simp [Row.covers, encode, encodeUnder, wordMsg, OpWord.fmt, OpWord.key, Message.type, MsgType.id]⟩

theorem reset : Statement .reset :=
  ⟨⟨"RESET", .port, 0, 7⟩, List.mem_of_getElem? (i := 34) rfl, rfl, by
    simp [Row.covers, encode, encodeUnder, wordPort, OpWord.fmt, OpWord.key]⟩

theorem connect (openOk : Bool) : Statement (.connect openOk) :=
  ⟨⟨"CONNECT", .port, 1, 7⟩, List.mem_of_getElem? (i := 35) rfl, rfl, by
    simp [Row.covers, encode, encodeUnder, wordPort, OpWord.fmt, OpWord.key]⟩

theorem disconnect : Statement .disconnect :=
  ⟨⟨"DISCONNECT", .port, 2, 7⟩, List.mem_of_getElem? (i := 36) rfl, rfl, by
    simp [Row.covers, encode, encodeUnder, wordPort, OpWord.fmt, OpWord.key]⟩

theorem txSend (msg : Message) (inst : Int) : Statement (.txSend msg inst) :=
  ⟨⟨"TX.SEND", .port, 3, 7⟩, List.mem_of_getElem? (i := 37) rfl, rfl, by
    simp [Row.covers, encode, encodeUnder, wordPort, OpWord.fmt, OpWord.key]⟩

theorem statRead (reader : Reader) (lag : Lag) : Statement (.statRead reader lag) :=
  ⟨⟨"STAT.READ", .port, 4, 7⟩, List.mem_of_getElem? (i := 38) rfl, rfl, by
    simp [Row.covers, encode, encodeUnder, wordPort, OpWord.fmt, OpWord.key]⟩

theorem crc16 (bytes : List Byte) (length : Nat) (initial : BitVec 16) :
    Statement (.crc16 bytes length initial) :=
  ⟨⟨"CRC16", .port, 5, 7⟩, List.mem_of_getElem? (i := 39) rfl, rfl, by
    simp [Row.covers, encode, encodeUnder, wordPort, OpWord.fmt, OpWord.key]⟩

end Sys2Proof.Laws.TableKey
end

