-- ==== Sys2Proof/Tests/Slice0.lean ====
section
/-! SUPPORT. Tests: ill-formed terms WellFormed refuses, words written out from the spec's encoding,
one-step vectors of spec/95_test_vectors.md, and for each obligation with hypotheses a witness that
meets them. -/

namespace Sys2Proof.Tests

open Sys2Proof.Machine Sys2Proof.Claims

/-! ## WellFormed refuses -/

/-- R122: RX.NOISE is not selected for the marker. -/
theorem smoke_noise_marker : ¬ (Instr.rxNoise 0xFE).WellFormed := by decide

/-- R129: states 0 to 7 are not unexpected. -/
theorem smoke_badstate_code : ¬ (Instr.rxBadstate 7 0).WellFormed := by decide

/-- R21: a state code has `STATE_W` bits. -/
theorem smoke_badstate_width : ¬ (Instr.rxBadstate 256 0).WellFormed := by decide

/-- R7: under a wider `STATE_W` the same term is well-formed. -/
theorem smoke_badstate_other_width :
    (Instr.rxBadstate 256 0).wellFormedUnder { cfg with stateW := 9 } := by decide

/-- R140: a body has at most 255 bytes; one term for each decoder. -/
theorem smoke_long_body (body : List Byte) (h : bodyFits body = false) :
    ∀ i ∈ [Instr.decAssertMessage 0, .decDebugMessage 0, .decCaptureData 0,
      .decDrivingCommand 0, .decCaptureCommand 0, .decStatusData 0, .decModes 0, .decRobotCommand 0,
    .decWave 0, .decPidParams 0, .decTaskTimingResult 0],
    ¬ (i body).WellFormed := by
  simp [Instr.WellFormed, Instr.wellFormed, Instr.wellFormedUnder, h]

theorem smoke_long_body_witness : bodyFits (List.replicate 256 0) = false := by
  unfold bodyFits
  rw [List.length_replicate]
  rfl

/-- R143: an id with a decoder is not unknown. -/
theorem smoke_known_id : ¬ (Instr.decUnknown 14 0).WellFormed := by decide

/-- R110: a length beyond the bytes. -/
theorem smoke_crc_length : ¬ (Instr.crc16 [1, 2] 3 0).WellFormed := by decide

/-! ## Decoding: words written out from R92, R93 and the table, each constructor once -/

/-- Format FSM: the parser's state code and the byte. -/
theorem test_decode_fsm :
    decode ⟨0x00, .rxByte 0xFE⟩ = .ok .rxWait ∧ decode ⟨0x00, .rxByte 0xFF⟩ = .ok (.rxNoise 0xFF) ∧
    decode ⟨0x01, .rxByte 0x0F⟩ = .ok (.rxType 0x0F) ∧ decode ⟨0x02, .rxByte 0x01⟩ = .ok (.rxInstlo 0x01) ∧
    decode ⟨0x03, .rxByte 0x80⟩ = .ok (.rxInsthi 0x80) ∧ decode ⟨0x04, .rxByte 0x00⟩ = .ok (.rxLen 0x00) ∧
    decode ⟨0x05, .rxByte 0xFE⟩ = .ok (.rxBody 0xFE) ∧ decode ⟨0x06, .rxByte 0x73⟩ = .ok (.rxCrclo 0x73) ∧
    decode ⟨0x07, .rxByte 0x3F⟩ = .ok (.rxCrchi 0x3F) ∧
    decode ⟨0x08, .rxByte 0xFE⟩ = .ok (.rxBadstate 8 0xFE) ∧
    decode ⟨0xFF, .rxByte 0x00⟩ = .ok (.rxBadstate 255 0) := by decide

/-- Format FRAME: marker, id, instance low byte first, length, body. -/
theorem test_decode_frame :
    decode ⟨0, .frame [0xFE, 0x00, 0x34, 0x12, 0x01, 0xAA]⟩ = .ok (.decAssertMessage 0x1234 [0xAA]) ∧
    decode ⟨0, .frame [0xFE, 0x01, 0x00, 0x80, 0x00]⟩ = .ok (.decDebugMessage 0x8000 []) ∧
    decode ⟨0, .frame [0xFE, 0x02, 0x01, 0x00, 0x02, 1, 2]⟩ = .ok (.decCaptureData 1 [1, 2]) ∧
    decode ⟨0, .frame [0xFE, 0x03, 0x00, 0x00, 0x01, 0xFE]⟩ = .ok (.decDrivingCommand 0 [0xFE]) ∧
    decode ⟨0, .frame [0xFE, 0x04, 0xFF, 0xFF, 0x00]⟩ = .ok (.decCaptureCommand 0xFFFF []) ∧
    decode ⟨0, .frame [0xFE, 0x05, 0x00, 0x01, 0x00]⟩ = .ok (.decStatusData 0x0100 []) ∧
    decode ⟨0, .frame [0xFE, 0x0E, 0x00, 0x00, 0x02, 1, 2]⟩ = .ok (.decModes 0 [1, 2]) ∧
    decode ⟨0, .frame [0xFE, 0x0F, 0x03, 0x00, 0x02, 0x02, 0xAA]⟩ = .ok (.decRobotCommand 3 [2, 0xAA]) ∧
    decode ⟨0, .frame [0xFE, 0x11, 0x00, 0x00, 0x01, 9]⟩ = .ok (.decWave 0 [9]) ∧
    decode ⟨0, .frame [0xFE, 0x12, 0x02, 0x00, 0x00]⟩ = .ok (.decPidParams 2 []) ∧
    decode ⟨0, .frame [0xFE, 0x14, 0x00, 0x00, 0x00]⟩ = .ok (.decTaskTimingResult 0 []) ∧
    decode ⟨0, .frame [0xFE, 0x10, 0x07, 0x00, 0x01, 0]⟩ = .ok (.decUnknown 0x10 7) ∧
    decode ⟨0, .frame [0xFE, 0x0E, 0x00, 0x00, 0x03, 1, 2]⟩ = .error .bodyLengthMismatch ∧
    decode ⟨0, .frame [0xFE, 0x0E, 0x00]⟩ = .error .frameTooShort := by decide

/-- Format MSG: the type id of the message's variant. -/
theorem test_decode_msg :
    decode ⟨0, .encode 0x00 (.assertMessage ⟨2, [0x78], 1⟩)⟩ = .ok (.encAssertMessage ⟨2, [0x78], 1⟩) ∧
    decode ⟨0, .encode 0x01 (.debugMessage ⟨[0x48], 1⟩)⟩ = .ok (.encDebugMessage ⟨[0x48], 1⟩) ∧
    decode ⟨0, .encode 0x02 (.captureData ⟨1, 2, 3, 4, 5, 6, 7, 8, 9⟩)⟩ =
      .ok (.encCaptureData ⟨1, 2, 3, 4, 5, 6, 7, 8, 9⟩) ∧
    decode ⟨0, .encode 0x03 (.drivingCommand ⟨-1, 2, 3⟩)⟩ = .ok (.encDrivingCommand ⟨-1, 2, 3⟩) ∧
    decode ⟨0, .encode 0x04 (.captureCommand ⟨1, 0, 1000, 5000, 0⟩)⟩ =
      .ok (.encCaptureCommand ⟨1, 0, 1000, 5000, 0⟩) ∧
    decode ⟨0, .encode 0x05 (.statusData ⟨1, 2, 3, 4, 5, 6, 7, 8, [9], none⟩)⟩ =
      .ok (.encStatusData ⟨1, 2, 3, 4, 5, 6, 7, 8, [9], none⟩) ∧
    decode ⟨0, .encode 0x0E (.modes ⟨1, 2, 3⟩)⟩ = .ok (.encModes ⟨1, 2, 3⟩) ∧
    decode ⟨0, .encode 0x0F (.robotCommand ⟨256⟩)⟩ = .ok (.encRobotCommand ⟨256⟩) ∧
    decode ⟨0, .encode 0x11 (.wave ⟨[1]⟩)⟩ = .ok (.encWave ⟨[1]⟩) ∧
    decode ⟨0, .encode 0x12 (.pidParams ⟨1, 2, 3, 4, 5, 6, 7⟩)⟩ = .ok (.encPidParams ⟨1, 2, 3, 4, 5, 6, 7⟩) ∧
    decode ⟨0, .encode 0x13 (.request ⟨5⟩)⟩ = .ok (.encRequest ⟨5⟩) ∧
    decode ⟨0, .encode 0x14 (.taskTimingResult ⟨[1], [2]⟩)⟩ = .ok (.encTaskTimingResult ⟨[1], [2]⟩) ∧
    decode ⟨0, .encode 0x0E (.request ⟨5⟩)⟩ = .error .variantMismatch := by decide

/-- Format PORT: the command code. -/
theorem test_decode_port :
    decode ⟨0, .command 0b000 Args.zero⟩ = .ok .reset ∧
    decode ⟨0, .command 0b001 { Args.zero with openOk := true }⟩ = .ok (.connect true) ∧
    decode ⟨0, .command 0b010 Args.zero⟩ = .ok .disconnect ∧
    decode ⟨0, .command 0b011 { Args.zero with msg := .request ⟨5⟩, inst := 65536 }⟩ =
      .ok (.txSend (.request ⟨5⟩) 65536) ∧
    decode ⟨0, .command 0b100 { Args.zero with reader := ⟨2, 3⟩ }⟩ =
      .ok (.statRead ⟨2, 3⟩ ⟨0, 0, 0, 0, 0, 0⟩) ∧
    decode ⟨0, .command 0b101 { Args.zero with bytes := [0xFF], length := 1, initial := 3 }⟩ =
      .ok (.crc16 [0xFF] 1 3) := by decide

/-- The host's numbering: a row's key, operands zero. -/
theorem test_table_words :
    decodeTableWord 16 0x00FE = some .rxWait ∧ decodeTableWord 16 0x0700 = some (.rxCrchi 0) ∧
    decodeTableWord 16 0xFE0E = some (.decModes 0 []) ∧
    decodeTableWord 8 0x13 = some (.encRequest ⟨0⟩) ∧ decodeTableWord 8 4 =
      some (.statRead ⟨0, 0⟩ ⟨0, 0, 0, 0, 0, 0⟩) := by decide

/-! ## One-step vectors -/

/-- Connected, idle, every counter zero: `RESET; CONNECT ok`. -/
def up : State := { State.reset with connected := true }

/-- A connected parser at a given place of a frame. -/
def mid (state : Nat) (cursor : BitVec 9) (len : BitVec 8) (buf : Memory) : State :=
  { up with state := state, cursor := cursor, len := len, buf := buf }

/-- The parser before the last byte of V18's frame `FE 07 00 00 00 DF B0`. -/
def beforeLast : State := mid 7 6 0 [(0, 0xFE), (1, 0x07), (5, 0xDF)]

/-- What a field of the next state is. -/
def ends {α : Type} [DecidableEq α] (o : Host.Outcome State Fault Refusal) (f : State → α) (v : α) : Bool :=
  match o with
  | .next t => decide (f t = v)
  | .fault _ => false
  | .refused _ => false

/-- V11: table entries. -/
theorem test_crc_table_entries :
    ends (exec (.crc16 [0xFF] 1 0) up) (·.result) (some (.crc 0x1EF0)) ∧
    ends (exec (.crc16 [0x41] 1 0) up) (·.result) (some (.crc 0x58E5)) := by decide

/-- R111 reflected, by hand: `rev8(0x80)` is 1, whose table entry is `0x1021` (R112), whose reverse is
`0x8408`; the final XOR comes after. -/
theorem test_crc_reflected :
    crc16 { cfg with crcReflect := true, crcXorout := 0xFFFF } [0x80] 1 0 = 0x7BF7 := by
  decide +kernel

/-- V12: bytes beyond `length` are not read. -/
theorem test_crc_length :
    ends (exec (.crc16 [0xFE, 0x0F, 0x01, 0x00, 0x01, 0x00, 0x73, 0x3F] 6 0xFFFF) up) (·.result)
      (some (.crc 0x3F73)) := by decide +kernel

/-- V18: a zero-length body goes to state 6 at its length byte. -/
theorem test_rx_len_zero :
    ends (exec (.rxLen 0) (mid 4 4 0 [(0, 0xFE), (1, 0x07)])) (fun t => (t.state, t.cursor, t.len)) (6, 5, 0) ∧
    ends (exec (.rxLen 12) (mid 4 4 0 [(0, 0xFE), (1, 0x03)])) (fun t => (t.state, t.cursor, t.len)) (5, 5, 12) := by
  decide

/-- R127: the last body byte goes to state 6, another does not. -/
theorem test_rx_body_end :
    ends (exec (.rxBody 1) (mid 5 7 3 [(0, 0xFE), (4, 3)])) (fun t => (t.state, t.cursor)) (6, 8) ∧
    ends (exec (.rxBody 1) (mid 5 6 3 [(0, 0xFE), (4, 3)])) (fun t => (t.state, t.cursor)) (5, 7) := by decide

/-- V18: a good frame of a reserved type is reported and dropped. -/
theorem test_rx_crchi_unknown :
    ends (exec (.rxCrchi 0xB0) beforeLast) (·.result) (some (.unknownType 7 0)) ∧
    ends (exec (.rxCrchi 0xB0) beforeLast) (·.stats) ⟨0, 0, 1, 1, 0, 1⟩ := by decide +kernel

/-- V17's case on V18's frame: a wrong CRC byte counts in `bad_crc` alone. -/
theorem test_rx_crchi_bad :
    ends (exec (.rxCrchi 0xB1) beforeLast) (·.stats) ⟨0, 0, 1, 0, 1, 0⟩ ∧
    ends (exec (.rxCrchi 0xB1) beforeLast) (·.ev) [] := by decide +kernel

/-- V23: an unexpected state resets the parser; the byte is consumed. -/
theorem test_rx_badstate :
    ends (exec (.rxBadstate 9 0x55) (mid 9 3 7 [])) (fun t => (t.state, t.cursor, t.len)) (0, 0, 0) ∧
    ends (exec (.rxBadstate 9 0x55) (mid 9 3 7 [])) (·.result) (some .stateCorrupt) := by decide

/-- V22: not connected, a byte is ignored and not counted. -/
theorem test_rx_ignored :
    ends (exec .rxWait State.reset) (fun t => (t.result, t.state, t.stats))
      (some .ignored, 0, ⟨0, 0, 0, 0, 0, 0⟩) := by decide

/-- V25, V30: Modes, and Modes one byte short. -/
theorem test_dec_modes :
    ends (exec (.decModes 0 [1, 2, 3]) up) (·.ev) [.dispatch 14 0 (.modes ⟨1, 2, 3⟩)] ∧
    ends (exec (.decModes 0 [1, 2]) up) (·.ev) [.report (.decodingError 14 0 2 3)] := by decide

/-- V26: CaptureCommand, low bytes first. -/
theorem test_dec_capture_command :
    ends (exec (.decCaptureCommand 0 [0x01, 0x00, 0xE8, 0x03, 0x88, 0x13, 0, 0, 0, 0, 0, 0]) up) (·.ev)
      [.dispatch 4 0 (.captureCommand ⟨1, 0, 1000, 5000, 0⟩)] := by decide

/-- V31: the byte beyond the layout is ignored. -/
theorem test_dec_robot_command :
    ends (exec (.decRobotCommand 3 [0x02, 0xAA]) up) (·.ev) [.dispatch 15 3 (.robotCommand ⟨2⟩)] := by decide

/-- V32: a Request that arrives has no decoder. -/
theorem test_dec_request :
    ends (exec (.decUnknown 19 0) up) (·.stats) ⟨0, 0, 0, 0, 0, 1⟩ := by decide

/-- V20's body: DrivingCommand. -/
theorem test_dec_driving :
    ends (exec (.decDrivingCommand 0 [0xFE, 0, 0, 0, 0, 0, 0, 0x3F, 0, 0, 0x80, 0xBE]) up) (·.ev)
      [.dispatch 3 0 (.drivingCommand ⟨0xFE, 0x3F000000, 0xBE800000⟩)] := by decide

/-- V36's body, and R182's range check. -/
theorem test_enc_request :
    ends (exec (.encRequest ⟨5⟩) up) (·.result) (some (.encoded 19 [5])) ∧
    ends (exec (.encRequest ⟨256⟩) up) (·.result) (some (.encodingError .requestedTypeId)) := by decide

/-- V37: `2^32` does not fit. -/
theorem test_enc_driving :
    ends (exec (.encDrivingCommand ⟨4294967296, 0, 0⟩) up) (·.result)
      (some (.encodingError .movementBitmask)) := by decide

/-- ENC.StatusData tests the telemetry list first (R177), TX.SEND the fields in layout order (R227). -/
theorem test_status_two_errors :
    let c := { cfg with statusTelem := [] }
    let m : StatusData := ⟨0, 0, 0, 0, 256, 0, 0, 0, [1], none⟩
    ends (perform c (.encStatusData m) up) (·.result) (some (.encodingError .telem)) ∧
    ends (perform c (.txSend (.statusData m) 65536) up) (·.result)
      (some (.encodingError .mainMode)) := by decide

/-- V34: the scenario frame. -/
theorem test_send_robot_command :
    ends (exec (.txSend (.robotCommand ⟨0⟩) 1) up) (fun t => (t.tx, t.stats))
      ([0xFE, 0x0F, 0x01, 0x00, 0x01, 0x00, 0x73, 0x3F], ⟨8, 1, 0, 0, 0, 0⟩) := by decide +kernel

/-- V39, V40: the instance does not fit; the connection check comes first. -/
theorem test_send_errors :
    ends (exec (.txSend (.robotCommand ⟨0⟩) 65536) up) (·.result) (some (.encodingError .inst)) ∧
    ends (exec (.txSend (.robotCommand ⟨256⟩) 1) State.reset) (·.result) (some .notConnected) := by decide

/-- V41, V42. -/
theorem test_connect :
    ends (exec (.connect true) up) (·.result) (some .alreadyConnected) ∧
    ends (exec (.connect false) State.reset) (·.result) (some .connectionFailure) := by decide

/-- V43's last two operations. -/
theorem test_disconnect :
    ends (exec .disconnect up) (·.result) (some (.closed true)) ∧
    ends (exec .disconnect State.reset) (·.result) (some (.closed false)) := by decide

/-- R220's codes; 16 and above are the exceptions. -/
theorem test_outcome_codes :
    OpResult.done.code = some 0 ∧ (OpResult.closed true).code = some 2 ∧ OpResult.notConnected.code = some 10 ∧
    OpResult.badCrc.code = some 16 ∧ OpResult.stateCorrupt.code = some 19 ∧
    OpResult.connectionFailure.code = some 22 ∧ OpResult.ignored.isError = false ∧
    OpResult.badCrc.isError = true := by decide

/-- V24's derived values: 12.0 V times 0.5 is 6.0 V; and 0 radians are 0 degrees, -1.0 is -100 percent (R146). -/
theorem test_numerics :
    cfg.num.volt 0x41400000 0x3F000000 = 0x4018000000000000 ∧
    cfg.num.deg 0 = 0 ∧ cfg.num.pct 0xBF800000 = 0xC059000000000000 := by decide

/-- One radian in degrees, and 1 rad/s in revolutions per minute: IEEE 754 double arithmetic done outside
the model. -/
theorem test_numerics_rounded :
    cfg.num.deg 0x3F800000 = 0x404CA5DC1A63C1F8 ∧ cfg.num.rpm 0x3F800000 = 0x4023193D66ED2BFB ∧
    cfg.num.deg 0x80000000 = 0x8000000000000000 := by decide +kernel

/-- A third, rounded: IEEE 754 double arithmetic done outside the model. The same for the ticks of a
clock whose `TIMER_HZ` is the parameter (R7, R146): 72 ticks at 72 MHz are one microsecond. -/
theorem test_timer_hz :
    nearest64 (1 / 3 : ℚ) = 0x3FD5555555555555 ∧
    (numDefault (72000000 : ℚ)).ticksUs 72 = 0x3FF0000000000000 := by decide +kernel

/-- R60: a consumer that has seen the dispatch of a frame cannot read a `msgs_rcvd` from before it; one
that has not can (R206). -/
theorem test_stat_read_after_dispatch :
    let s := (up.record.bumpMsgsRcvd cfg).emitEv (.dispatch 15 0 (.robotCommand ⟨0⟩))
    ends (exec (.statRead ⟨0, 1⟩ ⟨0, 0, 0, 1, 0, 0⟩) s) (·.result) (some (.stats ⟨0, 0, 0, 1, 0, 0⟩)) ∧
    ends (exec (.statRead ⟨0, 0⟩ ⟨0, 0, 0, 1, 0, 0⟩) s) (·.result) (some (.stats ⟨0, 0, 0, 0, 0, 0⟩)) := by
  decide

/-- D3: under another id table the same frame selects another decoder, and encoders emit its ids. -/
theorem test_other_id_table :
    let tab : IdTable := fun ty => ty.id + 100
    decodeUnder tab ⟨0, .frame [0xFE, 114, 0x00, 0x00, 0x03, 1, 2, 3]⟩ = .ok (.decModes 0 [1, 2, 3]) ∧
    decodeUnder tab ⟨0, .frame [0xFE, 14, 0x00, 0x00, 0x03, 1, 2, 3]⟩ = .ok (.decUnknown 14 0) ∧
    ends (perform { cfg with idTable := tab } (.encRequest ⟨5⟩) up) (·.result)
      (some (.encoded 119 [5])) := by decide

/-- R17 at another `CNT_W`: a one-bit counter saturates at 1. -/
theorem test_saturation :
    satInc { cfg with cntW := 1 } 1 1 = 1 ∧ satInc cfg 0xFFFFFFFE 5 = 0xFFFFFFFF := by decide

/-! ## Witnesses: for each obligation with hypotheses, values that meet them -/

theorem witness_DecodeOfEncodeIsIdentity :
    ∀ i ∈ [Instr.rxNoise 0xFF, .rxBadstate 8 0, .rxBadstate 255 0xFE, .decUnknown 19 0, .decUnknown 6 0,
      .decUnknown 13 0, .decUnknown 16 0, .decUnknown 21 0, .decUnknown 255 0, .crc16 [1] 1 0, .crc16 [1] 0 0,
      .decModes 0 [], .txSend (.request ⟨-1⟩) (-1)], i.WellFormed := by decide

theorem witness_DecodeOfEncodeIsIdentity_longest : (Instr.decWave 0 (List.replicate 255 0)).WellFormed := by
  show bodyFits (List.replicate 255 0) = true
  unfold bodyFits
  rw [List.length_replicate]
  rfl

theorem witness_DecoderFollowsOpcodeTable :
    8 < 2 ^ 8 ∧ decode ⟨8, .rxByte 0⟩ = .ok (.rxBadstate 8 0) ∧ 255 < 2 ^ 8 ∧
    decode ⟨255, .rxByte 0⟩ = .ok (.rxBadstate 255 0) := by decide

theorem witness_StepRunsTheDecodedOperation :
    (up.startOp (.rxByte 0xFE)).pending = [.rxByte 0xFE] ∧ decode ⟨up.state, .rxByte 0xFE⟩ = .ok .rxWait ∧
    (up.startOp (.command 6 Args.zero)).pending = [.command 6 Args.zero] ∧
    decode ⟨up.state, .command 6 Args.zero⟩ = .error .unassignedCommand ∧ up.pending = [] := by decide

theorem witness_ConnectGivesFreshParser : up.connected = true ∧ State.reset.connected = false := by decide

theorem witness_DisconnectAbandonsTheFrame : State.reset.connected = false := by decide

/-- One change of the counters back, for a reader that has not read and has seen nothing: both points
are admitted for each counter; for one that has seen the dispatch, the present one is. -/
theorem witness_StatReadReturnsExactlyTheAdmittedValues :
    let s := (up.record.bumpMsgsRcvd cfg).emitEv (.dispatch 15 0 (.robotCommand ⟨0⟩))
    (∀ k, Admitted s ⟨0, 0⟩ k (here s) ∧ Admitted s ⟨0, 0⟩ k (here up)) ∧
    ∀ k, Admitted s ⟨0, 1⟩ k (here s) := by
  exact ⟨fun k => ⟨⟨by decide, fun _ => by decide⟩, ⟨by decide, fun _ => by decide⟩⟩,
    fun k => ⟨by decide, fun _ => by decide⟩⟩

/-- A refused CONNECT and a noise byte between the reads. -/
theorem witness_StatReadNeverGoesBackwards :
    ∃ t u w v₁ v₂, up.HistInv ∧ up.stats.fits cfg = true ∧
      exec (.statRead ⟨1, 0⟩ ⟨0, 0, 0, 0, 0, 0⟩) up = .next t ∧ t.result = some (.stats v₁) ∧
      RunsUnzeroed [.connect true, .rxNoise 0x11] t u ∧
      exec (.statRead ⟨1, 0⟩ ⟨0, 0, 1, 0, 0, 0⟩) u = .next w ∧ w.result = some (.stats v₂) := by
  refine ⟨_, _, _, _, _, by decide, by decide, rfl, rfl,
    ⟨?_, _, rfl, ?_, _, rfl, rfl⟩, rfl, rfl⟩ <;> simp [zeroes, up]

/-- The parser before the last byte of the scenario frame of R118, `FE 0F 01 00 01 00 73 3F`. -/
def beforeRobot : State := mid 7 7 1 [(0, 0xFE), (1, 0x0F), (2, 1), (4, 1), (6, 0x73)]

theorem witness_StatReadNeverGoesBackwards_seen :
    ∃ t w v, beforeRobot.HistInv ∧ beforeRobot.stats.fits cfg = true ∧
      exec (.rxCrchi 0x3F) beforeRobot = .next t ∧
      t.result = some (.dispatched 15 1 (.robotCommand ⟨0⟩)) ∧ RunsUnzeroed [] t t ∧ t.frames ≤ 1 ∧
      exec (.statRead ⟨0, 1⟩ ⟨0, 0, 0, 1, 0, 0⟩) t = .next w ∧ w.result = some (.stats v) := by
  have h : ends (exec (.rxCrchi 0x3F) beforeRobot) (fun t => (t.result, t.frames))
      (some (.dispatched 15 1 (.robotCommand ⟨0⟩)), 1) = true := by decide +kernel
  generalize exec (.rxCrchi 0x3F) beforeRobot = o at h
  cases o with
  | next t =>
    simp only [ends, decide_eq_true_eq, Prod.mk.injEq] at h
    exact ⟨t, _, _, by decide, by decide, rfl, h.1, rfl, h.2.le, rfl, rfl⟩
  | fault r => cases h
  | refused r => cases h

theorem witness_CrcCommandReturnsTheCrc :
    (2 ≤ ([1, 2] : List Byte).length ∧ 0 ≤ ([] : List Byte).length) ∧ ([1, 2] : List Byte).length < 3 := by
  decide

theorem witness_CrcCornerCases : 1 ≤ ([0x80] : List Byte).length ∧ 0 ≤ ([] : List Byte).length ∧
    cfg.crcReflect = false ∧ cfg.crcXorout = 0 := ⟨by decide, by decide, rfl, rfl⟩

theorem witness_CrcChains : cfg.crcReflect = false ∧ cfg.crcXorout = 0 ∧ 2 ≤ 2 ∧ 0 ≤ 2 ∧
    2 ≤ ([1, 2] : List Byte).length := ⟨rfl, rfl, by decide⟩

theorem witness_CrcTableFormAgrees : cfg.crcReflect = false ∧ cfg.crcXorout = 0 := ⟨rfl, rfl⟩

theorem witness_CrcDetectsEverySingleBitFlip :
    cfg.crcPoly.getLsbD 0 = true ∧ OneBitApart [0x01, 0xFF] [0x81, 0xFF] ∧ OneBitApart [0x01, 0xFF] [0x01, 0xFE] := by
  refine ⟨by decide, ⟨rfl, 0, by decide, 7, by decide, by decide, ?_⟩, ⟨rfl, 1, by decide, 0, by decide, by decide, ?_⟩⟩
  · intro j hj
    rcases j with _ | _ | j <;> simp_all
  · intro j hj
    rcases j with _ | _ | j <;> simp_all

theorem witness_InputIgnoredWhileNotConnected :
    isRx .rxWait ∧ isDec (.decModes 0 []) ∧ isDec (.decUnknown 19 0) ∧ State.reset.connected = false :=
  ⟨⟨0, 0, .head _⟩, ⟨14, 0, [], .inl rfl⟩, ⟨19, 0, [], .inr rfl⟩, rfl⟩

theorem witness_RxHeaderBytesAreStored : up.connected = true ∧ up.buf.wf = true := by decide

theorem witness_RxBodyAndCrcLowAreStoredAtCursor :
    (mid 5 261 255 []).connected = true ∧ (mid 5 261 255 []).buf.wf = true ∧
    (mid 5 261 255 []).cursor.toNat < 262 := by decide

theorem witness_RxBeyondBufferFaults :
    up.connected = true ∧ 262 ≤ (mid 5 262 0 []).cursor.toNat ∧ 262 ≤ (mid 7 511 0 []).cursor.toNat ∧
    Instr.rxCrchi 0 ∈ [Instr.rxBody 0, .rxCrclo 0, .rxCrchi 0] := by decide

theorem witness_RxNoiseOnlyCounts :
    up.connected = true ∧ up.state = 0 ∧ 0xFE ∉ ([0x00, 0x11, 0xFF] : List Byte) ∧
    0xFE ∉ ([] : List Byte) ∧ up.stats.fits cfg = true := by
  decide

theorem witness_RxBadstateResetsTheParser : (mid 9 3 7 []).connected = true := by decide

theorem witness_RxBadCrcIsCountedAndSilent :
    beforeLast.connected = true ∧ beforeLast.buf.wf = true ∧ beforeLast.cursor.toNat < 262 ∧
    ¬ CrcMatches beforeLast 0xB1 := by
  refine ⟨by decide, by decide, by decide, ?_⟩
  unfold CrcMatches
  decide +kernel

theorem witness_RxGoodCrcRunsTheSelectedDecoder :
    beforeLast.connected = true ∧ beforeLast.buf.wf = true ∧ beforeLast.cursor.toNat < 262 ∧
    CrcMatches beforeLast 0xB0 := by
  refine ⟨by decide, by decide, by decide, ?_⟩
  unfold CrcMatches
  decide +kernel

theorem witness_FrameEndIdlesTheParser : ∃ t, beforeLast.connected = true ∧ exec (.rxCrchi 0xB0) beforeLast = .next t :=
  ⟨_, rfl, rfl⟩

theorem witness_FrameEndMovesOneCounter : ∃ t, beforeLast.connected = true ∧ exec (.rxCrchi 0xB1) beforeLast = .next t :=
  ⟨_, rfl, rfl⟩

/-- The parser after a marker: 261 bytes to come at most. -/
theorem witness_ParserReturnsWithin261Bytes :
    (mid 1 1 0 [(0, 0xFE)]).Inv ∧ (mid 1 1 0 [(0, 0xFE)]).connected = true ∧ (mid 1 1 0 [(0, 0xFE)]).state ≠ 0 ∧
    (List.replicate 261 (0 : Byte)).length = 261 :=
  ⟨by decide, by decide, by decide, List.length_replicate ..⟩

theorem witness_LoopbackDispatchesTheMessage :
    up.Inv ∧ up.connected = true ∧ up.state = 0 ∧ encodeBody cfg (.modes ⟨1, 2, 3⟩) = .ok [1, 2, 3] ∧
    Decodable (Message.modes ⟨1, 2, 3⟩).type.id := by
  refine ⟨by decide, by decide, by decide, by decide, ?_⟩
  simp [Decodable, Message.type, MsgType.id]

/-- V15's split of the scenario frame, with an empty chunk in it, and the frame as one chunk. -/
theorem witness_ChunkBoundariesAreNotObservable :
    up.Inv ∧ up.connected = true ∧ up.state = 0 ∧ encodeBody cfg (.robotCommand ⟨0⟩) = .ok [0] ∧
    Decodable (Message.robotCommand ⟨0⟩).type.id ∧
    List.flatten [[0xFE, 0x0F], [0x01, 0x00, 0x01], [], [0x00, 0x73], [0x3F]] =
      wire cfg (Message.robotCommand ⟨0⟩).type.id 1 [0] ∧
    List.flatten [[0xFE, 0x0F, 0x01, 0x00, 0x01, 0x00, 0x73, 0x3F]] =
      wire cfg (Message.robotCommand ⟨0⟩).type.id 1 [0] := by
  refine ⟨by decide, by decide, by decide, by decide, ?_, by decide +kernel, by decide +kernel⟩
  simp [Decodable, Message.type, MsgType.id]

theorem witness_TaggedParserIsTheSameMachine :
    ∃ t, beforeLast.Inv ∧ beforeLast.connected = true ∧ rxByte 0xB0 beforeLast = .next t :=
  ⟨_, by decide, rfl, rfl⟩

theorem witness_BufferReadAfterWrite :
    Memory.wf [(0, 0xFE), (261, 1)] = true ∧ 0 < 262 ∧ 261 < 262 ∧
    ∀ x, Memory.read [(0, 0xFE)] x = Memory.read [(0, 0xFE)] x := ⟨by decide, by decide, by decide, fun _ => rfl⟩

theorem witness_DecIntegerLayouts : up.connected = true := rfl

theorem witness_DecFloatLayouts : up.connected = true := rfl

theorem witness_DecTextLayouts : up.connected = true ∧ (List.replicate 200 (0x41 : Byte)).length = 200 :=
  ⟨rfl, List.length_replicate ..⟩

theorem witness_DecStatusDataWithDerivedFields :
    up.connected = true ∧ (List.replicate cfg.statusTelem.length (0x7FC00000 : F32)).length = cfg.statusTelem.length :=
  ⟨rfl, List.length_replicate ..⟩

theorem witness_DecRawLayouts :
    up.connected = true ∧ (List.replicate cfg.waveSize (1 : Byte)).length = cfg.waveSize ∧
    (List.replicate 32 (0x41 : Byte)).length = 32 ∧
    (List.replicate (cfg.ttrSize - 32) (2 : Byte)).length = cfg.ttrSize - 32 :=
  ⟨rfl, List.length_replicate .., List.length_replicate .., List.length_replicate ..⟩

theorem witness_BodyShorterFailsAndTailIsIgnored :
    up.connected = true ∧ MsgType.modes ≠ .request ∧ ([1, 2] : List Byte).length < MsgType.modes.size cfg ∧
    MsgType.modes.size cfg ≤ ([1, 2, 3] : List Byte).length := by decide

theorem witness_UnknownTypeIsReported :
    up.connected = true ∧ (∀ t ∈ ([6, 13, 16, 19, 21, 255] : List Byte), ¬ Decodable t) ∧
    ∀ t ∈ ([0, 5, 14, 15, 17, 18, 20] : List Byte), Decodable t := by
  refine ⟨rfl, ?_, ?_⟩ <;> simp [Decodable]

theorem witness_EncTextLayouts :
    (List.replicate 200 (0x41 : Byte)).length ≤ 200 ∧ (List.replicate 32 (0x41 : Byte)).length ≤ 32 ∧
    (List.replicate (cfg.ttrSize - 32) (2 : Byte)).length = cfg.ttrSize - 32 := by
  refine ⟨?_, ?_, ?_⟩ <;> rw [List.length_replicate]

theorem witness_EncStatusAndWaveLayouts :
    (List.replicate cfg.statusTelem.length (0 : F32)).length = cfg.statusTelem.length ∧
    (List.replicate cfg.waveSize (1 : Byte)).length = cfg.waveSize :=
  ⟨List.length_replicate .., List.length_replicate ..⟩

/-- The boundary values of each width, on both sides. -/
theorem witness_EncRangeErrorNamesFirstField :
    (¬ (0 ≤ (-1 : Int) ∧ (-1 : Int) < 2 ^ 8) ∧ ¬ (0 ≤ (256 : Int) ∧ (256 : Int) < 2 ^ 8) ∧
      (0 ≤ (255 : Int) ∧ (255 : Int) < 2 ^ 8)) ∧
    (¬ (0 ≤ (65536 : Int) ∧ (65536 : Int) < 2 ^ 16) ∧ (0 ≤ (65535 : Int) ∧ (65535 : Int) < 2 ^ 16)) ∧
    (¬ (0 ≤ (4294967296 : Int) ∧ (4294967296 : Int) < 2 ^ 32) ∧
      (0 ≤ (4294967295 : Int) ∧ (4294967295 : Int) < 2 ^ 32)) ∧
    (List.replicate 200 (0x41 : Byte)).length ≤ 200 ∧
    (List.replicate cfg.statusTelem.length (0 : F32)).length = cfg.statusTelem.length := by
  refine ⟨by decide, by decide, by decide, ?_, ?_⟩ <;> rw [List.length_replicate]

theorem witness_EncLengthErrorNeverTruncates :
    200 < (List.replicate 201 (0x41 : Byte)).length ∧ 32 < (List.replicate 33 (0x41 : Byte)).length ∧
    (List.replicate 32 (0x41 : Byte)).length ≤ 32 ∧
    (List.replicate (cfg.ttrSize - 32 + 1) (2 : Byte)).length ≠ cfg.ttrSize - 32 ∧
    (List.replicate (cfg.waveSize + 1) (1 : Byte)).length ≠ cfg.waveSize ∧
    (List.replicate (cfg.statusTelem.length + 1) (0 : F32)).length ≠ cfg.statusTelem.length := by
  refine ⟨?_, ?_, ?_, ?_, ?_, ?_⟩ <;> rw [List.length_replicate] <;> omega

theorem witness_EncodedBodyHasExactlySize : cfg.Valid ∧ encodeBody cfg (.modes ⟨1, 2, 3⟩) = .ok [1, 2, 3] :=
  ⟨cfg_valid, by decide⟩

theorem witness_DecodeOfEncodedBodyIsTheMessage :
    cfg.Valid ∧ encodeBody cfg (.robotCommand ⟨255⟩) = .ok [255] ∧ (Message.robotCommand ⟨255⟩).type ≠ .request :=
  ⟨cfg_valid, by decide, by decide⟩

theorem witness_EncodeOfDecodedBodyIsTheBody :
    cfg.Valid ∧ MsgType.modes.size cfg ≤ ([1, 2, 3, 4] : List Byte).length ∧
    decodeBody cfg [1, 2, 3, 4] .modes = some (.modes ⟨1, 2, 3⟩) :=
  ⟨cfg_valid, by decide, by decide⟩

theorem witness_TxSendEmitsOneFrame :
    up.connected = true ∧ encodeBody cfg (.robotCommand ⟨0⟩) = .ok [0] := ⟨rfl, by decide⟩

theorem witness_TxSendChecksInOrder :
    State.reset.connected = false ∧ up.connected = true ∧
    encodeBody cfg (.robotCommand ⟨256⟩) = .error .command ∧ encodeBody cfg (.robotCommand ⟨0⟩) = .ok [0] ∧
    ¬ (0 ≤ (65536 : Int) ∧ (65536 : Int) < 65536) ∧ ¬ (0 ≤ (-1 : Int) ∧ (-1 : Int) < 65536) := by decide

/-- A mode byte that does not fit comes before the telemetry list, whatever its length; and with the mode
bytes fitting a list of the wrong length is the first that fails. -/
theorem witness_TxSendChecksInOrder_status :
    (∀ telem : List F32, ∃ post,
      statusChecks cfg ⟨0, 0, 0, 0, 255, 256, 0, 0, telem, none⟩ =
        [(.mainMode, true)] ++ (.subMode, false) :: post) ∧
    statusChecks cfg ⟨0, 0, 0, 0, 0, 0, 255, 0, List.replicate (cfg.statusTelem.length + 1) 0, none⟩ =
      [(.mainMode, true), (.subMode, true), (.state, true), (.pad, true)] ++ [(.telem, false)] := by
  constructor
  · exact fun telem => ⟨_, rfl⟩
  · simp [statusChecks]

theorem witness_StepKeepsTheInvariant_anyCfg :
    let c := { cfg with crcReflect := true, cntW := 1, stateW := 3 }
    ∃ t, c.Valid ∧ (up.startOp (.rxByte 0xFE)).InvUnder c ∧
      stepUnder c (up.startOp (.rxByte 0xFE)) = .next t :=
  ⟨_, { cfg_valid with stateW := by decide, cntW := by decide }, by decide, rfl⟩

theorem witness_StepKeepsTheInvariant :
    ∃ t, (beforeLast.startOp (.rxByte 0xB0)).Inv ∧ step (beforeLast.startOp (.rxByte 0xB0)) = .next t :=
  ⟨_, by decide, rfl⟩

theorem witness_NoStepFaults :
    (up.startOp (.command 7 Args.zero)).Inv ∧
    step (up.startOp (.command 7 Args.zero)) = .refused (.undecodable .unassignedCommand) ∧
    step (up.startOp (.command 5 { Args.zero with length := 1 })) = .refused .crcLengthBeyondBytes :=
  ⟨by decide, rfl, rfl⟩

theorem witness_CountersMoveOnlyBySatInc : ∃ t u,
    step (up.startOp (.rxByte 0)) = .next t ∧ ¬ zeroes (.rxNoise 0) (up.startOp (.rxByte 0)) ∧
    step (up.startOp (.command 2 Args.zero)) = .next u ∧ zeroes .disconnect (up.startOp (.command 2 Args.zero)) :=
  ⟨_, _, rfl, by simp [zeroes], rfl, .inr (.inl rfl)⟩

theorem witness_CountersDecreaseOnlyByZeroing :
    ∃ t u, up.stats.fits cfg = true ∧ exec (.rxNoise 0) up = .next t ∧ ¬ zeroes (.rxNoise 0) up ∧
      exec (.connect true) up = .next u ∧ ¬ zeroes (.connect true) up :=
  ⟨_, _, by decide, rfl, by simp [zeroes], rfl, by simp [zeroes, up]⟩

theorem witness_OnlyThreeOperationsChangeConnected :
    ∃ t u, exec (.connect true) State.reset = .next t ∧ t.connected ≠ State.reset.connected ∧
      exec .disconnect up = .next u ∧ u.connected ≠ up.connected := ⟨_, _, rfl, by decide, rfl, by decide⟩

theorem witness_StreamsOnlyGrow : ∃ t, exec (.rxCrchi 0xB0) beforeLast = .next t := ⟨_, rfl⟩

theorem witness_OnlyTheParserTouchesItsRegisters :
    ∃ t, exec (.encRequest ⟨5⟩) beforeLast = .next t ∧ ¬ isRx (.encRequest ⟨5⟩) ∧
      ¬ zeroes (.encRequest ⟨5⟩) beforeLast := by
  refine ⟨_, rfl, ?_, by simp [zeroes]⟩
  rintro ⟨st, b, h⟩
  simp [fsmArms] at h

theorem witness_ReceiveAndSendCommute : ∃ t u t' u',
    rxByte 0xFE up = .next t ∧ exec (.txSend (.robotCommand ⟨0⟩) 1) t = .next u ∧
    exec (.txSend (.robotCommand ⟨0⟩) 1) up = .next t' ∧ rxByte 0xFE t' = .next u' :=
  ⟨_, _, _, _, rfl, rfl, rfl, rfl⟩

theorem witness_CommandErrorsChangeNothing : ∃ t u v w x,
    exec (.txSend (.robotCommand ⟨0⟩) 1) State.reset = .next t ∧ t.result = some .notConnected ∧
    exec (.connect true) up = .next u ∧ u.result = some .alreadyConnected ∧
    exec (.connect false) State.reset = .next v ∧ v.result = some .connectionFailure ∧
    exec .rxWait State.reset = .next w ∧ w.result = some .ignored ∧
    exec (.encRequest ⟨256⟩) up = .next x ∧ x.result = some (.encodingError .requestedTypeId) :=
  ⟨_, _, _, _, _, rfl, rfl, rfl, rfl, rfl, rfl, rfl, rfl, rfl, rfl⟩

theorem witness_VoltAndPctAreExact :
    ratOf (val32 0x3F000000) = some (1 / 2) ∧ ratOf (val32 0x80000001) = some (-1 * (2 : ℚ) ^ (-149 : Int)) := by
  have h : val32 0x3F000000 = .fin false 0x800000 (-24) := by decide
  have h' : val32 0x80000001 = .fin true 1 (-149) := by decide
  constructor
  · rw [h]
    norm_num [ratOf]
  · rw [h']
    simp [ratOf]

theorem witness_DegAndRpmAreNearest :
    ratOf (val32 0x3F800000) = some 1 ∧
    ratOf (val64 0x400921FB54442D18) = some (884279719003555 / 281474976710656) := by
  have h : val32 0x3F800000 = .fin false 0x800000 (-23) := by decide
  have h' : val64 0x400921FB54442D18 = .fin false 0x1921FB54442D18 (-51) := by decide
  constructor
  · rw [h]
    norm_num [ratOf]
  · rw [h']
    norm_num [ratOf]

theorem witness_NanOperandGivesNanResult : val32 0x7FC00000 = .nan ∧ val32 0xFF800001 = .nan := by decide

end Sys2Proof.Tests
end

section
/-! PROOFS. Which instructions a port's operations select, and everything a step can do (spec R57, R58,
R92). -/

namespace Sys2Proof.Machine

open Sys2Proof.Claims

/-! ## The format of an instruction -/

theorem fmt_decodeFsm (st : Nat) (b : Byte) : (encode (decodeFsm st b)).fmt = .fsm := by
  unfold decodeFsm
  split
  · split <;> rfl
  all_goals rfl

theorem fmt_decodeFrameTypeUnder (tab : IdTable) (t : Byte) (inst : U16) (body : List Byte) :
    (encode (decodeFrameTypeUnder tab t inst body)).fmt = .frame := by
  unfold decodeFrameTypeUnder
  split <;> rfl

theorem fmt_encodeInstr (m : Message) : (encode (encodeInstr m)).fmt = .msg := by
  cases m <;> rfl

theorem fmt_of_decodeFrame {tab : IdTable} {f : List Byte} {i : Instr}
    (h : decodeFrame tab f = .ok i) : (encode i).fmt = .frame := by
  unfold decodeFrame at h
  repeat' split at h
  all_goals cases h
  exact fmt_decodeFrameTypeUnder ..

theorem fmt_of_decodeMsg {tab : IdTable} {t : Byte} {m : Message} {i : Instr}
    (h : decodeMsg tab t m = .ok i) : (encode i).fmt = .msg := by
  unfold decodeMsg at h
  repeat' split at h
  all_goals cases h
  exact fmt_encodeInstr m

theorem fmt_of_decodePort {code : BitVec 3} {a : Args} {i : Instr}
    (h : decodePort code a = .ok i) : (encode i).fmt = .port := by
  unfold decodePort at h
  split at h <;> cases h <;> rfl

/-- The decoder selects an instruction of the format of the operation's port (R92). -/
theorem fmt_of_decodeUnder {tab : IdTable} {w : OpWord} {i : Instr}
    (h : decodeUnder tab w = .ok i) : (encode i).fmt = w.fmt := by
  obtain ⟨st, op⟩ := w
  cases op with
  | rxByte b => cases h; exact fmt_decodeFsm st b
  | frame f => exact fmt_of_decodeFrame h
  | encode t m => exact fmt_of_decodeMsg h
  | command code a => exact fmt_of_decodePort h

/-- The arms of RX.BYTE are the instructions of format FSM. -/
theorem isRx_iff {i : Instr} : isRx i ↔ (encode i).fmt = .fsm := by
  constructor
  · rintro ⟨st, b, h⟩
    simp only [fsmArms, List.mem_cons, List.not_mem_nil, or_false] at h
    rcases h with rfl | rfl | rfl | rfl | rfl | rfl | rfl | rfl | rfl | rfl <;> rfl
  · intro h
    cases i with
    | rxWait => exact ⟨0, 0, by simp [fsmArms]⟩
    | rxBadstate st b => exact ⟨st, b, by simp [fsmArms]⟩
    | rxNoise b | rxType b | rxInstlo b | rxInsthi b | rxLen b | rxBody b | rxCrclo b | rxCrchi b =>
      exact ⟨0, b, by simp [fsmArms]⟩
    | _ => cases h

/-- The decoders are the instructions of format FRAME. -/
theorem isDec_iff {i : Instr} : isDec i ↔ (encode i).fmt = .frame := by
  constructor
  · rintro ⟨t, inst, body, rfl | rfl⟩
    · exact fmt_decodeFrameTypeUnder ..
    · rfl
  · intro h
    cases i with
    | decAssertMessage inst body => exact ⟨0, inst, body, .inl rfl⟩
    | decDebugMessage inst body => exact ⟨1, inst, body, .inl rfl⟩
    | decCaptureData inst body => exact ⟨2, inst, body, .inl rfl⟩
    | decDrivingCommand inst body => exact ⟨3, inst, body, .inl rfl⟩
    | decCaptureCommand inst body => exact ⟨4, inst, body, .inl rfl⟩
    | decStatusData inst body => exact ⟨5, inst, body, .inl rfl⟩
    | decModes inst body => exact ⟨14, inst, body, .inl rfl⟩
    | decRobotCommand inst body => exact ⟨15, inst, body, .inl rfl⟩
    | decWave inst body => exact ⟨17, inst, body, .inl rfl⟩
    | decPidParams inst body => exact ⟨18, inst, body, .inl rfl⟩
    | decTaskTimingResult inst body => exact ⟨20, inst, body, .inl rfl⟩
    | decUnknown t inst => exact ⟨t, inst, [], .inr rfl⟩
    | _ => cases h

/-! ## The step -/

/-- Everything a step can do: nothing while no operation waits, and else the operation the decoder
selects, in the state without it (R57, R58, R239). -/
theorem stepUnder_next {c : Cfg} {s t : State} (h : stepUnder c s = .next t) :
    (s.pending = [] ∧ t = s) ∨ ∃ op rest i, s.pending = op :: rest ∧
      decodeUnder c.idTable ⟨s.state, op⟩ = .ok i ∧
      perform c i { s with pending := rest } = .next t := by
  unfold stepUnder State.fetch at h
  cases hp : s.pending with
  | nil => rw [hp] at h; cases h; exact .inl ⟨rfl, rfl⟩
  | cons op rest =>
    simp only [hp] at h
    cases hd : decodeUnder c.idTable ⟨s.state, op⟩ with
    | error e => rw [hd] at h; cases h
    | ok i => rw [hd] at h; exact .inr ⟨op, rest, i, rfl, hd, h⟩

end Sys2Proof.Machine
end

section
/-! PROOFS. The counters (spec/00_scope.md R17; spec/10_state.md R28, R29): one lemma for each kind of
operation, then one over the effects. -/

namespace Sys2Proof.Machine

open Sys2Proof.Claims

/-- In the operation `i` from `s` to `t` counter `k` moves as R28's table has it: by sat_inc with the
table's amount where the table has `i` increment it, and not at all otherwise (R17). -/
def CounterMoves (c : Cfg) (i : Instr) (s t : State) (k : Fin 6) : Prop :=
  (∃ n, Increments i s t k n ∧ counter t.stats k = satInc c (counter s.stats k) n) ∨
  ((∀ n, ¬ Increments i s t k n) ∧ counter t.stats k = counter s.stats k)

/-- The outcomes that R28's table has increment a counter other than `bytes_rcvd` and `msgs_rcvd`. -/
def countsOutcome : OpResult → Bool
  | .sent _ | .badCrc | .decodingError _ _ _ _ | .unknownType _ _ => true
  | _ => false

/-- The result is that of a decode failure (R142, R143): what R28's table asks for `dropped`. -/
def IsDecodeFailure (result : Option OpResult) : Prop :=
  ∃ ty inst, result = some (.unknownType ty inst) ∨
    ∃ have_ need, result = some (.decodingError ty inst have_ need)

theorem isDecodeFailure_of {t : Byte} {inst : U16} {r : OpResult}
    (h : r = .unknownType t inst ∨ ∃ k n, r = .decodingError t inst k n) : IsDecodeFailure (some r) :=
  ⟨t, inst, h.imp (congrArg some) fun ⟨k, n, e⟩ => ⟨k, n, congrArg some e⟩⟩

theorem IsDecodeFailure.ne_sent {result : Option OpResult} (h : IsDecodeFailure result)
    (f : List Byte) : result ≠ some (.sent f) := by
  rintro rfl
  obtain ⟨ty, inst, e | ⟨_, _, e⟩⟩ := h <;> cases e

theorem IsDecodeFailure.ne_badCrc {result : Option OpResult} (h : IsDecodeFailure result) :
    result ≠ some .badCrc := by
  rintro rfl
  obtain ⟨ty, inst, e | ⟨_, _, e⟩⟩ := h <;> cases e

section
variable {c : Cfg} {i : Instr} {s t : State} {k : Fin 6}

theorem CounterMoves.moved {n : Nat} (h : Increments i s t k n)
    (e : counter t.stats k = satInc c (counter s.stats k) n) : CounterMoves c i s t k :=
  .inl ⟨n, h, e⟩

theorem CounterMoves.stays (h : ∀ n, ¬ Increments i s t k n)
    (e : counter t.stats k = counter s.stats k) : CounterMoves c i s t k := .inr ⟨h, e⟩

theorem isRx_of_rxCrchi (h : ∃ b, i = .rxCrchi b) : isRx i := by
  obtain ⟨b, rfl⟩ := h
  exact isRx_iff.mpr rfl

theorem not_isRx_txSend (m : Message) (inst : Int) : ¬ isRx (.txSend m inst) := by
  rw [isRx_iff]
  nofun

theorem not_isRx_of_isDec (h : isDec i) : ¬ isRx i := by
  rw [isRx_iff, isDec_iff.mp h]
  nofun

/-- The counters other than `bytes_rcvd` and `msgs_rcvd` are incremented with such an outcome only. -/
theorem not_increments_of_outcome {r : OpResult} (hr : t.result = some r)
    (hq : countsOutcome r = false) (h2 : k ≠ 2) (h3 : k ≠ 3) (n : Nat) : ¬ Increments i s t k n := by
  match k with
  | 0 | 1 =>
    rintro ⟨m, inst, f, -, e, -⟩
    cases hr.symm.trans e; cases hq
  | 2 => exact absurd rfl h2
  | 3 => exact absurd rfl h3
  | 4 =>
    rintro ⟨-, e, -⟩
    cases hr.symm.trans e; cases hq
  | 5 =>
    rintro ⟨-, -, ty, inst, e | ⟨_, _, e⟩⟩ <;> cases hr.symm.trans e <;> cases hq

/-- An operation that is no byte received while connected, with another outcome, moves no counter. -/
theorem counterMoves_of_unchanged {r : OpResult} (hr : t.result = some r)
    (hq : countsOutcome r = false) (hrx : isRx i → s.connected = false) (hs : t.stats = s.stats) :
    CounterMoves c i s t k := by
  refine .stays (fun n hn => ?_) (by rw [hs])
  by_cases h2 : k = 2
  · subst h2
    obtain ⟨hi, hc, -⟩ := hn
    simp [hrx hi] at hc
  by_cases h3 : k = 3
  · subst h3
    obtain ⟨hi, hc, -⟩ := hn
    simp [hrx (isRx_of_rxCrchi hi)] at hc
  exact not_increments_of_outcome hr hq h2 h3 n hn

/-- A byte that does not end a frame moves `bytes_rcvd` (R120). -/
theorem counterMoves_of_byte {r : OpResult} (hr : t.result = some r) (hq : countsOutcome r = false)
    (hc : s.connected = true) (hi : isRx i) (hlast : ¬ ∃ b, i = .rxCrchi b)
    (hs : t.stats = { s.stats with bytesRcvd := satInc c s.stats.bytesRcvd 1 }) :
    CounterMoves c i s t k := by
  match k with
  | 2 => exact .moved ⟨hi, hc, rfl⟩ (by rw [hs]; rfl)
  | 3 => exact .stays (fun n hn => hlast hn.1) (by rw [hs]; rfl)
  | 0 | 1 | 4 | 5 => exact .stays (not_increments_of_outcome hr hq nofun nofun) (by rw [hs]; rfl)

/-- A frame sent moves `bytes_sent` and `msgs_sent` (R190). -/
theorem counterMoves_of_sent {m : Message} {inst : Int} {f : List Byte} :
    CounterMoves c (.txSend m inst) s (sendFrame c f s) k := by
  have hrx := not_isRx_txSend m inst
  match k with
  | 0 | 1 => exact .moved ⟨m, inst, f, rfl, rfl, rfl⟩ rfl
  | 2 => exact .stays (fun n hn => hrx hn.1) rfl
  | 3 | 4 => exact .stays (fun n hn => hrx (isRx_of_rxCrchi hn.1)) rfl
  | 5 => exact .stays (fun n hn => IsDecodeFailure.ne_sent hn.2.2 f rfl) rfl

/-- A decode failure at the codec's port moves `dropped` (R140, R143). -/
theorem counterMoves_of_failed {r : OpResult} (hi : isDec i) (hr : IsDecodeFailure (some r)) :
    CounterMoves c i s (failDecode c r s.record) k := by
  have hrx := not_isRx_of_isDec hi
  match k with
  | 0 | 1 => exact .stays (fun n ⟨_, _, f, _, e, _⟩ => hr.ne_sent f e) rfl
  | 2 => exact .stays (fun n hn => hrx hn.1) rfl
  | 3 | 4 => exact .stays (fun n hn => hrx (isRx_of_rxCrchi hn.1)) rfl
  | 5 => exact .moved ⟨.inr hi, rfl, hr⟩ rfl

/-- The byte that ends a frame moves `bytes_rcvd`, and with it `bad_crc`, or `msgs_rcvd`, or
`msgs_rcvd` and `dropped` (R120, R131, R140). -/
theorem counterMoves_of_crchi {b : Byte} (hc : s.connected = true) :
    CounterMoves c (.rxCrchi b) s (verify c (s.atVerify c b)).idleParser k := by
  have hrx : isRx (.rxCrchi b) := isRx_iff.mpr rfl
  refine verify_induct (P := fun u => CounterMoves c (.rxCrchi b) s u.idleParser k) ?bad ?good ?drop
  case bad =>
    match k with
    | 2 => exact .moved ⟨hrx, hc, rfl⟩ rfl
    | 3 => exact .stays (fun n hn => hn.2.2.1 rfl) rfl
    | 4 => exact .moved ⟨⟨b, rfl⟩, rfl, rfl⟩ rfl
    | 5 => exact .stays (fun n hn => IsDecodeFailure.ne_badCrc hn.2.2 rfl) rfl
    | 0 | 1 => exact .stays (fun n ⟨_, _, _, e, _⟩ => nomatch e) rfl
  case good =>
    intro ty inst m
    match k with
    | 2 => exact .moved ⟨hrx, hc, rfl⟩ rfl
    | 3 => exact .moved ⟨⟨b, rfl⟩, hc, nofun, rfl⟩ rfl
    | 0 | 1 | 4 | 5 => exact .stays (not_increments_of_outcome rfl rfl nofun nofun) rfl
  case drop =>
    intro ty inst r hr
    have hfail := isDecodeFailure_of hr
    match k with
    | 2 => exact .moved ⟨hrx, hc, rfl⟩ rfl
    | 3 => exact .moved ⟨⟨b, rfl⟩, hc, hfail.ne_badCrc, rfl⟩ rfl
    | 4 => exact .stays (fun n hn => hfail.ne_badCrc hn.2.1) rfl
    | 5 => exact .moved ⟨.inl ⟨b, rfl⟩, rfl, hfail⟩ rfl
    | 0 | 1 => exact .stays (fun n ⟨_, _, _, e, _⟩ => nomatch e) rfl

/-- An operation that does not zero the counters moves each as R28's table has it. -/
theorem Effect.counterMoves (h : Effect c s i t) (hz : ¬ zeroes i s) : CounterMoves c i s t k := by
  cases h with
  | ignored i hi hc => exact counterMoves_of_unchanged rfl rfl (fun _ => hc) rfl
  | encode i m r hi hr =>
    have hm : isRx i → s.connected = false := by
      rw [isRx_iff, hi, fmt_encodeInstr]
      nofun
    obtain ⟨_, _, rfl⟩ | ⟨_, rfl⟩ := hr <;> exact counterMoves_of_unchanged rfl rfl hm rfl
  | notSent m inst r hr =>
    have hm : isRx (.txSend m inst) → s.connected = false := fun h => absurd h (not_isRx_txSend m inst)
    obtain ⟨_, rfl⟩ | ⟨_, _, rfl⟩ := hr <;> exact counterMoves_of_unchanged rfl rfl hm rfl
  | notOpened ok r hr =>
    have hm : isRx (.connect ok) → s.connected = false := by
      rw [isRx_iff]
      nofun
    obtain ⟨_, rfl⟩ | ⟨_, _, rfl⟩ := hr <;> exact counterMoves_of_unchanged rfl rfl hm rfl
  | crc bytes n init hn =>
    exact counterMoves_of_unchanged rfl rfl (by rw [isRx_iff]; nofun) rfl
  | read reader lag => exact counterMoves_of_unchanged rfl rfl (by rw [isRx_iff]; nofun) rfl
  | reset => exact absurd (.inl rfl) hz
  | connect hc => exact absurd (.inr (.inr ⟨rfl, hc⟩)) hz
  | disconnect => exact absurd (.inr (.inl rfl)) hz
  | send m inst f hc => exact counterMoves_of_sent
  | dispatch i ty inst body m hi hc =>
    refine counterMoves_of_unchanged rfl rfl ?_ rfl
    rw [isRx_iff, hi, fmt_decodeFrameTypeUnder]
    nofun
  | fail i ty inst body r hi hc hr =>
    exact counterMoves_of_failed (isDec_iff.mpr (hi ▸ fmt_decodeFrameTypeUnder ..))
      (isDecodeFailure_of (hr.imp_right fun ⟨n, e⟩ => ⟨_, n, e⟩))
  | unknown ty inst hc =>
    exact counterMoves_of_failed (isDec_iff.mpr rfl) (isDecodeFailure_of (.inl rfl))
  | crchi b hc hl => exact counterMoves_of_crchi hc
  | _ => exact counterMoves_of_byte rfl rfl ‹_› (isRx_iff.mpr rfl) nofun rfl

/-- An operation that zeroes the counters leaves one of R37's three reset columns. -/
theorem restart_of_zeroes (h : perform c i s = .next t) (hz : zeroes i s) :
    ∃ conn r, t = (s.restart conn).finish r := by
  obtain rfl | rfl | ⟨rfl, hc⟩ := hz
  · cases h; exact ⟨_, _, rfl⟩
  · cases h; exact ⟨_, _, rfl⟩
  · obtain ⟨hc', -⟩ | ⟨-, -, e⟩ | ⟨-, ok, -⟩ := execConnect_cases true s
    · simp [hc] at hc'
    · cases e.symm.trans h; exact ⟨_, _, rfl⟩
    · cases ok
end

/-- Settles O51: by `counterMoves` of the effect of the operation that the step performs, or by the
reset column that a zeroing operation leaves. -/
theorem countersMoveOnlyBySatInc : Obligations.CountersMoveOnlyBySatInc := by
  refine ⟨fun c v k => rfl, fun s t h => ?_⟩
  rw [step_eq_stepUnder] at h
  obtain hidle | ⟨op, rest, i, hp, hd, h⟩ := stepUnder_next h
  · exact .inl hidle
  · refine .inr ⟨op, rest, i, hp, hd, fun hz => ?_, fun hz k => ?_⟩
    · obtain ⟨conn, r, rfl⟩ := restart_of_zeroes h hz
      rfl
    · exact (perform_effect MsgType.id_injective h).counterMoves hz

end Sys2Proof.Machine
end

section
/-! PROOFS. The ghost streams (spec/00_scope.md R15; spec/10_state.md R33).
That no instruction reads `tx` and `ev` is shown by prepending: every operation commutes with putting
earlier entries in front of both streams. A state is itself with empty streams and its own streams
prepended, so what an operation does from any streams follows from what it does from empty ones. -/

namespace Sys2Proof.Machine

open Sys2Proof.Claims


/-- `s` with earlier entries in front of its streams. -/
def State.prepend (tx : List Byte) (ev : List Event) (s : State) : State :=
  { s with tx := tx ++ s.tx, ev := ev ++ s.ev }

@[simp] theorem State.prepend_connected (tx : List Byte) (ev : List Event) (s : State) :
    (s.prepend tx ev).connected = s.connected := rfl

/-- An outcome with its next state mapped. -/
def mapNext (f : State → State) :
    Host.Outcome State Fault Refusal → Host.Outcome State Fault Refusal
  | .next s => .next (f s)
  | .fault r => .fault r
  | .refused r => .refused r

/-- The operation does the same, and appends the same, whatever stands in front of the streams. -/
def PrependCommutes (f : State → State) : Prop :=
  ∀ tx ev s, f (s.prepend tx ev) = (f s).prepend tx ev

/-- The same of a meaning. -/
def IgnoresStreams (f : State → Host.Outcome State Fault Refusal) : Prop :=
  ∀ tx ev s, f (s.prepend tx ev) = mapNext (State.prepend tx ev) (f s)

theorem PrependCommutes.comp {f g : State → State} (hf : PrependCommutes f) (hg : PrependCommutes g) :
    PrependCommutes (f ∘ g) := by
  intro tx ev s
  simp only [Function.comp_apply]
  rw [hg, hf]

theorem PrependCommutes.ignoresStreams {f : State → State} (h : PrependCommutes f) :
    IgnoresStreams fun s => .next (f s) := fun tx ev s => congrArg _ (h tx ev s)

theorem prependCommutes_finish (r : OpResult) : PrependCommutes (State.finish · r) :=
  fun _ _ _ => rfl

theorem prependCommutes_emitEv (e : Event) : PrependCommutes (State.emitEv · e) := by
  intro tx ev s
  simp [State.prepend, State.emitEv]

theorem prependCommutes_failDecode (c : Cfg) (r : OpResult) : PrependCommutes (failDecode c r) :=
  (prependCommutes_finish r).comp
    ((prependCommutes_emitEv (.report r)).comp (g := State.bumpDropped c) fun _ _ _ => rfl)

theorem prependCommutes_dispatchMsg (t : Byte) (inst : U16) (m : Message) :
    PrependCommutes (dispatchMsg t inst m) :=
  (prependCommutes_finish (.dispatched t inst m)).comp (prependCommutes_emitEv (.dispatch t inst m))

theorem prependCommutes_deliver (c : Cfg) (ty : MsgType) (inst : U16) (body : List Byte)
    (decoder : List Byte → Message) : PrependCommutes (deliver c ty inst body decoder) := by
  intro tx ev s
  obtain ⟨-, e⟩ | ⟨-, e⟩ := deliver_cases c ty inst body decoder <;> rw [e, e]
  · exact prependCommutes_failDecode c _ tx ev s
  · exact prependCommutes_dispatchMsg _ inst _ tx ev s

theorem prependCommutes_dec (c : Cfg) (t : Byte) (inst : U16) (body : List Byte) :
    PrependCommutes (dec c t inst body) := by
  intro tx ev s
  obtain ⟨m, e⟩ | ⟨r, -, e⟩ := dec_cases c t inst body <;> rw [e, e]
  · exact prependCommutes_dispatchMsg t inst m tx ev s
  · exact prependCommutes_failDecode c r tx ev s

theorem prependCommutes_verify (c : Cfg) : PrependCommutes (verify c) := by
  intro tx ev s
  show (if _ then _ else _) = State.prepend tx ev (if _ then _ else _)
  rw [apply_ite (State.prepend tx ev), ← prependCommutes_dec]
  rfl

theorem prependCommutes_sendFrame (c : Cfg) (f : List Byte) : PrependCommutes (sendFrame c f) := by
  intro tx ev s
  simp [State.prepend, sendFrame, State.record, State.emitTx, State.bumpSent, State.finish, State.now]

theorem prependCommutes_returnBody (t : Byte) (r : Except Field (List Byte)) :
    PrependCommutes (returnBody t r) := by
  cases r <;> exact prependCommutes_finish _

theorem ignoresStreams_rxByteCommon (c : Cfg) {arm : State → Host.Outcome State Fault Refusal}
    (h : IgnoresStreams arm) : IgnoresStreams (rxByteCommon c arm) := by
  intro tx ev s
  unfold rxByteCommon
  rw [State.prepend_connected, apply_ite (mapNext (State.prepend tx ev)), ← h]
  rfl

theorem ignoresStreams_rxPush (b : Byte) {rest : State → State} (h : PrependCommutes rest) :
    IgnoresStreams (rxPush b rest) := by
  intro tx ev s
  unfold rxPush
  rw [apply_ite (mapNext (State.prepend tx ev)), mapNext, ← h]
  rfl

theorem ignoresStreams_codecPort {run : State → State} (h : PrependCommutes run) :
    IgnoresStreams (codecPort run) := by
  intro tx ev s
  rw [codecPort_eq, codecPort_eq, State.prepend_connected, mapNext, apply_ite (State.prepend tx ev), ← h]
  rfl

theorem ignoresStreams_connect (ok : Bool) : IgnoresStreams (execConnect ok) := by
  intro tx ev s
  unfold execConnect
  rw [State.prepend_connected]
  cases s.connected <;> cases ok <;> rfl

theorem ignoresStreams_txSend (c : Cfg) (m : Message) (inst : Int) :
    IgnoresStreams (execTxSendUnder c m inst) := by
  intro tx ev s
  unfold execTxSendUnder
  rw [State.prepend_connected]
  cases s.connected with
  | false => rfl
  | true =>
    cases sendBody c m with
    | error f => rfl
    | ok body =>
      cases instFits inst with
      | false => rfl
      | true => exact congrArg Host.Outcome.next (prependCommutes_sendFrame c _ tx ev s)

theorem ignoresStreams_crc16 (c : Cfg) (bytes : List Byte) (n : Nat) (init : BitVec 16) :
    IgnoresStreams (execCrc16Under c bytes n init) := by
  intro tx ev s
  unfold execCrc16Under
  rw [apply_ite (mapNext (State.prepend tx ev))]
  rfl

/-- No instruction reads the streams (R33). -/
theorem ignoresStreams_perform (c : Cfg) (i : Instr) : IgnoresStreams (perform c i) := by
  cases i with
  | rxWait | rxType | rxInstlo | rxInsthi => exact ignoresStreams_rxByteCommon c fun _ _ _ => rfl
  | rxNoise b =>
    exact ignoresStreams_rxByteCommon c (prependCommutes_finish .noise).ignoresStreams
  | rxLen b =>
    exact ignoresStreams_rxByteCommon c
      (arm := fun s => rxStore 4 b 5 (if b = 0 then 6 else 5) (s.setLen b)) fun _ _ _ => rfl
  | rxBadstate st b =>
    exact ignoresStreams_rxByteCommon c
      (arm := fun s => .next (s.idleParser.finish .stateCorrupt)) fun _ _ _ => rfl
  | rxBody b | rxCrclo b =>
    exact ignoresStreams_rxByteCommon c (ignoresStreams_rxPush b fun _ _ _ => rfl)
  | rxCrchi b =>
    exact ignoresStreams_rxByteCommon c (ignoresStreams_rxPush b
      (PrependCommutes.comp (f := State.idleParser) (fun _ _ _ => rfl) (prependCommutes_verify c)))
  | decAssertMessage | decDebugMessage | decCaptureData | decDrivingCommand | decCaptureCommand
  | decStatusData | decModes | decRobotCommand | decWave | decPidParams | decTaskTimingResult =>
    exact ignoresStreams_codecPort (prependCommutes_deliver c _ _ _ _)
  | decUnknown t inst => exact ignoresStreams_codecPort (prependCommutes_failDecode c _)
  | encAssertMessage | encDebugMessage | encCaptureData | encDrivingCommand | encCaptureCommand
  | encStatusData | encModes | encRobotCommand | encWave | encPidParams | encRequest
  | encTaskTimingResult => exact (prependCommutes_returnBody _ _).ignoresStreams
  | reset | disconnect | statRead => exact fun _ _ _ => rfl
  | connect ok => exact ignoresStreams_connect ok
  | txSend m inst => exact ignoresStreams_txSend c m inst
  | crc16 bytes n init => exact ignoresStreams_crc16 c bytes n init

/-- `s` with empty streams. -/
def State.mute (s : State) : State := { s with tx := [], ev := [] }

theorem State.mute_prepend (s : State) (tx : List Byte) (ev : List Event) :
    s.mute.prepend tx ev = { s with tx := tx, ev := ev } := by
  simp [State.mute, State.prepend]

/-- With other streams an instruction does the same and appends the same (R33). -/
theorem perform_other_streams {c : Cfg} {i : Instr} {s t : State} (h : perform c i s = .next t)
    (tx : List Byte) (ev : List Event) : ∃ dtx dev, t.tx = s.tx ++ dtx ∧ t.ev = s.ev ++ dev ∧
      perform c i { s with tx := tx, ev := ev } = .next { t with tx := tx ++ dtx, ev := ev ++ dev } := by
  have own : s.mute.prepend s.tx s.ev = s := s.mute_prepend s.tx s.ev
  rw [← own, ignoresStreams_perform] at h
  rw [← s.mute_prepend tx ev, ignoresStreams_perform]
  cases h₀ : perform c i s.mute with
  | next t₀ =>
    rw [h₀] at h
    cases h
    exact ⟨t₀.tx, t₀.ev, rfl, rfl, rfl⟩
  | fault r => rw [h₀] at h; cases h
  | refused r => rw [h₀] at h; cases h

section
variable {c : Cfg} {i : Instr} {s t : State}

/-- Only TX.SEND emits on `tx`, one frame, and only while connected (R15, R190). -/
theorem Effect.tx_eq (h : Effect c s i t) : t.tx = s.tx ∨ (s.connected = true ∧
    ∃ m n f, i = .txSend m n ∧ t.tx = s.tx ++ f ∧ t.result = some (.sent f)) := by
  cases h with
  | send m inst f hc => exact .inr ⟨hc, m, inst, f, rfl, rfl, rfl⟩
  | crchi b hc hl =>
    obtain ⟨-, -, htx, -⟩ := verify_frame c (s.atVerify c b)
    exact .inl htx
  | _ => exact .inl rfl

/-- VERIFY emits at most one event (R131, R231). -/
theorem verify_ev (c : Cfg) (s : State) :
    (verify c s).ev = s.ev ∨ ∃ e, (verify c s).ev = s.ev ++ [e] :=
  verify_induct (P := fun t => t.ev = s.ev ∨ ∃ e, t.ev = s.ev ++ [e]) (.inl rfl)
    (fun _ _ _ => .inr ⟨_, rfl⟩) (fun _ _ _ _ => .inr ⟨_, rfl⟩)

/-- Only RX.CRCHI and the decoders emit on `ev`, one event, and only while connected (R231, R232). -/
theorem Effect.ev_eq (h : Effect c s i t) : t.ev = s.ev ∨ (s.connected = true ∧
    (isDec i ∨ ∃ b, i = .rxCrchi b) ∧ ∃ e, t.ev = s.ev ++ [e]) := by
  cases h with
  | dispatch i ty inst body m hi hc =>
    exact .inr ⟨hc, .inl (isDec_iff.mpr (hi ▸ fmt_decodeFrameTypeUnder ..)), _, rfl⟩
  | fail i ty inst body r hi hc hr =>
    exact .inr ⟨hc, .inl (isDec_iff.mpr (hi ▸ fmt_decodeFrameTypeUnder ..)), _, rfl⟩
  | unknown ty inst hc => exact .inr ⟨hc, .inl (isDec_iff.mpr rfl), _, rfl⟩
  | crchi b hc hl =>
    exact (verify_ev c (s.atVerify c b)).imp_right fun he => ⟨hc, .inr ⟨b, rfl⟩, he⟩
  | _ => exact .inl rfl

/-- No instruction touches the operations that wait (R57, R58). -/
theorem Effect.pending_eq (h : Effect c s i t) : t.pending = s.pending := by
  cases h with
  | crchi b hc hl =>
    obtain ⟨-, -, -, -, -, hp⟩ := verify_frame c (s.atVerify c b)
    exact hp
  | _ => rfl
end

/-- Settles O54: the emitters by the effects, the rest because every meaning commutes with prepending. -/
theorem streamsOnlyGrow : Obligations.StreamsOnlyGrow := by
  intro i s t h
  have he := exec_effect h
  refine ⟨he.tx_eq, he.ev_eq, fun tx ev => ?_, he.pending_eq⟩
  simp only [exec_eq_perform] at h ⊢
  exact perform_other_streams h tx ev

end Sys2Proof.Machine
end

section
/-! PROOFS. The invariant (spec/10_state.md R28, R29, R34): each of its parts is kept by every effect,
and the parser's registers by the arm that the decoder selects in the parser's own state. -/

namespace Sys2Proof.Machine

open Sys2Proof.Claims

/-! ## The invariant: buffer, link, history and widths -/

theorem Stats.fits_iff {c : Cfg} {v : Stats} : v.fits c = true ↔ ∀ k, counter v k < 2 ^ c.cntW := by
  simp [Stats.fits, Fin.forall_fin_succ, counter, and_assoc]

theorem Stats.le_iff {v w : Stats} : v.le w = true ↔ ∀ k, counter v k ≤ counter w k := by
  simp [Stats.le, Fin.forall_fin_succ, counter, and_assoc]

section
variable {c : Cfg} {i : Instr} {s t : State}

/-- A counter that moves by sat_inc keeps its width (R29 (e)). -/
theorem CounterMoves.fits (h : ∀ k, CounterMoves c i s t k) (hs : s.stats.fits c = true) :
    t.stats.fits c = true := by
  rw [Stats.fits_iff] at hs ⊢
  intro k
  obtain ⟨n, -, e⟩ | ⟨-, e⟩ := h k <;> rw [e]
  · exact satInc_lt c _ n
  · exact hs k

/-- A counter that moves by sat_inc does not decrease (R29 (a)). -/
theorem CounterMoves.le (h : ∀ k, CounterMoves c i s t k) (hs : s.stats.fits c = true) :
    s.stats.le t.stats = true := by
  rw [Stats.fits_iff] at hs
  rw [Stats.le_iff]
  intro k
  obtain ⟨n, -, e⟩ | ⟨-, e⟩ := h k <;> rw [e]
  exact le_satInc (hs k) n

/-- What an operation does to the link and to the history of the counters: it only answers; it marks
the place of a reader; it restarts the link; or it does its work while connected, the present point
joining the history first. -/
inductive HistoryMoves (s : State) : State → Prop
  | answered (r : OpResult) : HistoryMoves s (s.finish r)
  | read (agent : Nat) (r : OpResult) : HistoryMoves s ((s.setMark agent).finish r)
  | restarted (conn : Bool) (r : OpResult) : HistoryMoves s ((s.restart conn).finish r)
  | recorded (t : State) (hc : t.connected = true) (hh : t.hist = s.now :: s.hist)
      (hm : t.marks = s.marks) (hf : s.frames ≤ t.frames) : HistoryMoves s t

/-- VERIFY does not lower the count of frames (R60). -/
theorem frames_le_verify (c : Cfg) (s : State) : s.frames ≤ (verify c s).frames :=
  verify_induct (P := fun t => s.frames ≤ t.frames) le_rfl (fun _ _ _ => Nat.le_succ _)
    (fun _ _ _ _ => Nat.le_succ _)

theorem Effect.historyMoves (h : Effect c s i t) : HistoryMoves s t := by
  cases h with
  | ignored | encode | notSent | notOpened | crc => exact .answered _
  | read => exact .read _ _
  | reset | connect | disconnect => exact .restarted _ _
  | crchi b hc hl =>
    obtain ⟨-, hconn, -, hh, hm, -⟩ := verify_frame c (s.atVerify c b)
    exact .recorded _ (hconn.trans hc) hh hm (frames_le_verify c (s.atVerify c b))
  | _ => exact .recorded _ ‹_› rfl rfl le_rfl

/-- R34 (i). -/
theorem HistoryMoves.linkInv (h : HistoryMoves s t) (hs : s.LinkInv) : t.LinkInv := by
  cases h with
  | answered r => exact hs
  | read agent r => exact hs
  | restarted conn r => exact fun _ => ⟨rfl, rfl, rfl, rfl, rfl⟩
  | recorded t hc => exact fun hn => by simp [hc] at hn

/-- R29 (a): the history stays ordered when no counter has decreased since the present point, and the
marks stay inside it. -/
theorem HistoryMoves.histInv (h : HistoryMoves s t) (hs : s.HistInv)
    (hle : t.hist = s.now :: s.hist → s.stats.le t.stats = true) : t.HistInv := by
  obtain ⟨hord, hmarks⟩ := hs
  cases h with
  | answered r => exact ⟨hord, hmarks⟩
  | read agent r =>
    refine ⟨hord, fun m hm => ?_⟩
    simp only [State.finish_marks, State.setMark_marks, List.mem_cons, List.mem_filter] at hm
    obtain rfl | ⟨hm, -⟩ := hm
    · exact le_rfl
    · exact hmarks m hm
  | restarted conn r => exact ⟨List.pairwise_singleton _ _, nofun⟩
  | recorded t hc hh hm hf =>
    have hnow : s.now.le t.now = true := Past.le_iff.mpr ⟨hle hh, hf⟩
    rw [State.HistInv, hh, hm]
    refine ⟨List.pairwise_cons.mpr ⟨fun p hp => ?_, hord⟩, fun m hm => ?_⟩
    · obtain rfl | hp := List.mem_cons.mp hp
      · exact hnow
      · exact Past.le_trans (List.rel_of_pairwise_cons hord hp) hnow
    · exact (hmarks m hm).trans (Nat.le_succ _)

/-- Every store is inside the buffer, so its canonical form stays (R50). -/
theorem Effect.buf_wf (h : Effect c s i t) (hs : s.buf.wf = true) : t.buf.wf = true := by
  cases h with
  | wait | type | instlo | insthi | len => exact Memory.wf_write hs (by decide) _
  | body b hc hl | crclo b hc hl => exact Memory.wf_write hs hl _
  | crchi b hc hl =>
    obtain ⟨hbuf, -⟩ := verify_frame c (s.atVerify c b)
    exact (congrArg Memory.wf hbuf).trans (Memory.wf_write hs hl _)
  | _ => exact hs
end

/-! ## The invariant: the parser's registers (R34) -/

theorem State.parserInv_idleParser (s : State) : s.idleParser.ParserInv := by
  simp [State.ParserInv]

section
variable {c : Cfg} {i : Instr} {s t : State}

/-- An instruction that is no arm of RX.BYTE and zeroes nothing leaves the parser and its buffer
alone. -/
theorem Effect.parser_eq (h : Effect c s i t) (hrx : ¬ isRx i) (hz : ¬ zeroes i s) :
    t.buf = s.buf ∧ t.state = s.state ∧ t.cursor = s.cursor ∧ t.len = s.len := by
  rw [isRx_iff] at hrx
  cases h with
  | reset => exact absurd (.inl rfl) hz
  | connect hc => exact absurd (.inr (.inr ⟨rfl, hc⟩)) hz
  | disconnect => exact absurd (.inr (.inl rfl)) hz
  | ignored | encode | notSent | notOpened | crc | read | send | dispatch | fail | unknown =>
    exact ⟨rfl, rfl, rfl, rfl⟩
  | _ => exact absurd rfl hrx

/-- R34 (a) to (h) after an instruction that is no arm of RX.BYTE. -/
theorem parserInv_of_not_isRx (hid : Function.Injective c.idTable) (h : perform c i s = .next t)
    (hrx : ¬ isRx i) (hs : s.ParserInv) : t.ParserInv := by
  by_cases hz : zeroes i s
  · obtain ⟨conn, r, rfl⟩ := restart_of_zeroes h hz
    exact State.parserInv_idleParser s
  · obtain ⟨hbuf, hstate, hcursor, hlen⟩ := (perform_effect hid h).parser_eq hrx hz
    simpa only [State.ParserInv, hbuf, hstate, hcursor, hlen] using hs

section
variable (a : Nat) (b : Byte) (cur : BitVec 9) (st : Nat)

@[simp] theorem State.afterStore_state : (s.afterStore c a b cur st).state = st := rfl
@[simp] theorem State.afterStore_cursor : (s.afterStore c a b cur st).cursor = cur := rfl
@[simp] theorem State.afterStore_len : (s.afterStore c a b cur st).len = s.len := rfl
@[simp] theorem State.afterStore_buf : (s.afterStore c a b cur st).buf = s.buf.write a b := rfl
@[simp] theorem State.atVerify_cursor : (s.atVerify c b).cursor = s.cursor + 1 := rfl
@[simp] theorem State.atVerify_len : (s.atVerify c b).len = s.len := rfl
@[simp] theorem State.atVerify_buf : (s.atVerify c b).buf = s.buf.write s.cursor.toNat b := rfl
end

/-- R34 in states 1 to 4, where `cursor` is the state's code: after the arms of the first four header
bytes (R121 to R125). -/
theorem parserInv_header {a : Nat} {b : Byte} {cur : BitVec 9} (ha : a ≤ 3) (hcur : cur.toNat = a + 1)
    (hstart : (s.buf.write a b).read 0 = Config.startByte) :
    (s.afterStore c a b cur (a + 1)).ParserInv := by
  simp only [State.ParserInv, State.afterStore_state, State.afterStore_cursor, State.afterStore_len,
    State.afterStore_buf, hcur]
  refine ⟨?_, ?_, fun _ _ => trivial, ?_, ?_, ?_, fun _ => hstart, ?_, ?_⟩ <;> omega

/-- R34 after a byte stored at `cursor` in the body or the low CRC byte: the marker and the length
byte stand below `cursor`. -/
theorem parserInv_push {b : Byte} {st : Nat} {r : OpResult} (hwf : s.buf.wf = true)
    (hlow : 5 ≤ s.cursor.toNat) (hcur : s.cursor.toNat ≤ 5 + s.len.toNat)
    (hstart : s.buf.read 0 = Config.startByte) (hlen : s.buf.read 4 = s.len)
    (hst : (st = 5 ∧ s.cursor.toNat + 1 < 5 + s.len.toNat) ∨
      (st = 6 ∧ s.cursor.toNat + 1 = 5 + s.len.toNat) ∨ (st = 7 ∧ s.cursor.toNat = 5 + s.len.toNat)) :
    (((s.atVerify c b).setState st).finish r).ParserInv := by
  have hmax : s.len.toNat < 256 := s.len.isLt
  have hnext : (s.cursor + 1).toNat = s.cursor.toNat + 1 := by bv_omega
  have h0 : (s.buf.write s.cursor.toNat b).read 0 = Config.startByte := by
    rw [Memory.read_write hwf, if_neg (by omega), hstart]
  have h4 : (s.buf.write s.cursor.toNat b).read 4 = s.len := by
    rw [Memory.read_write hwf, if_neg (by omega), hlen]
  simp only [State.ParserInv, State.finish_state, State.finish_cursor, State.finish_len,
    State.finish_buf, State.setState_state, State.setState_cursor, State.setState_len,
    State.setState_buf, State.atVerify_cursor, State.atVerify_len, State.atVerify_buf, hnext]
  refine ⟨?_, ?_, ?_, ?_, ?_, ?_, fun _ => h0, fun _ => h4, ?_⟩ <;> omega

/-- R34 after the length byte, which decides whether a body follows (R126). -/
theorem parserInv_len {b : Byte} (hwf : s.buf.wf = true) (hstart : s.buf.read 0 = Config.startByte) :
    ((s.setLen b).afterStore c 4 b 5 (if b = 0 then 6 else 5)).ParserInv := by
  have h0 : (s.buf.write 4 b).read 0 = Config.startByte := by
    rw [Memory.read_write hwf, if_neg (by decide), hstart]
  have h4 : (s.buf.write 4 b).read 4 = b := by
    rw [Memory.read_write hwf, if_pos rfl]
  simp only [State.ParserInv, State.afterStore_state, State.afterStore_cursor, State.afterStore_len,
    State.afterStore_buf, State.setLen_len, State.setLen_buf]
  split
  · next hb0 =>
    subst hb0
    exact ⟨by decide, nofun, by omega, nofun, fun _ => rfl, nofun, fun _ => h0, fun _ => h4, by decide⟩
  · next hb0 =>
    have hpos : 1 ≤ b.toNat := by bv_omega
    exact ⟨by decide, nofun, by omega, fun _ => ⟨hpos, by decide, Nat.lt_add_of_pos_right hpos⟩, nofun,
      nofun, fun _ => h0, fun _ => h4, by decide⟩

/-- R34 (a) to (h) after a byte received while connected, arm by arm. -/
theorem Moved.parserInv {b : Byte} (h : Moved c s b t) (hwf : s.buf.wf = true) (hs : s.ParserInv) :
    t.ParserInv := by
  obtain ⟨hmax, hidle, hheader, hbody, hcrclo, hcrchi, hstart, hlen, hcursor⟩ := hs
  have hkeep : ∀ {a} (_ : a ≠ 0) (_ : s.state ≠ 0), (s.buf.write a b).read 0 = Config.startByte := by
    intro a ha hst
    rw [Memory.read_write hwf, if_neg (Ne.symm ha), hstart hst]
  cases h with
  | wait h0 hb => exact parserInv_header (by decide) rfl (by rw [Memory.read_write hwf, if_pos rfl])
  | noise h0 hb => exact ⟨hmax, hidle, hheader, hbody, hcrclo, hcrchi, hstart, hlen, hcursor⟩
  | type hst | instlo hst | insthi hst =>
    exact parserInv_header (by decide) rfl (hkeep (by decide) (by omega))
  | len h4 => exact parserInv_len hwf (hstart (by omega))
  | body h5 hl =>
    obtain ⟨-, hlow, hhigh⟩ := hbody h5
    have hnext : (s.cursor + 1).toNat = s.cursor.toNat + 1 := by bv_omega
    refine parserInv_push hwf hlow hhigh.le (hstart (by omega)) (hlen (by omega)) ?_
    rw [hnext]
    split <;> omega
  | crclo h6 hl =>
    have hcur := hcrclo h6
    exact parserInv_push hwf (by omega) hcur.le (hstart (by omega)) (hlen (by omega))
      (.inr (.inr ⟨rfl, hcur⟩))
  | crchi h7 hl => exact State.parserInv_idleParser _
  | badstate h8 => exact State.parserInv_idleParser _

/-- R34 (a) to (h) after RX.BYTE (R120). -/
theorem parserInv_rxByteUnder {b : Byte} (h : rxByteUnder c b s = .next t) (hwf : s.buf.wf = true)
    (hs : s.ParserInv) : t.ParserInv := by
  cases hc : s.connected with
  | false => cases (rxByteUnder_ignored hc).symm.trans h; exact hs
  | true => exact ((rxByteUnder_moved hc).mp h).parserInv hwf hs

/-- R34 (a) to (h) after the instruction that the decoder selects in the state itself: the parser's
arms keep them in the state that selects them only. -/
theorem parserInv_perform {op : Op} (hid : Function.Injective c.idTable)
    (hd : decodeUnder c.idTable ⟨s.state, op⟩ = .ok i) (h : perform c i s = .next t)
    (hwf : s.buf.wf = true) (hs : s.ParserInv) : t.ParserInv := by
  have hfmt := fmt_of_decodeUnder hd
  cases op with
  | rxByte b => cases hd; exact parserInv_rxByteUnder h hwf hs
  | frame | encode | command =>
    exact parserInv_of_not_isRx hid h (by rw [isRx_iff, hfmt]; nofun) hs

/-! ## The invariant of a step -/

/-- The counters keep their width, zeroed or moved by sat_inc (R28, R29 (e)). -/
theorem fits_perform (hid : Function.Injective c.idTable) (h : perform c i s = .next t)
    (hs : s.stats.fits c = true) : t.stats.fits c = true := by
  by_cases hz : zeroes i s
  · obtain ⟨conn, r, rfl⟩ := restart_of_zeroes h hz
    exact Stats.fits_zero c
  · exact CounterMoves.fits (fun k => (perform_effect hid h).counterMoves hz) hs

/-- R29 (a) after every operation. -/
theorem histInv_perform (hid : Function.Injective c.idTable) (h : perform c i s = .next t)
    (hfits : s.stats.fits c = true) (hs : s.HistInv) : t.HistInv := by
  refine (perform_effect hid h).historyMoves.histInv hs fun hhist => ?_
  by_cases hz : zeroes i s
  · obtain ⟨conn, r, rfl⟩ := restart_of_zeroes h hz
    cases hhist
  · exact CounterMoves.le (fun k => (perform_effect hid h).counterMoves hz) hfits

/-- The invariant after the instruction that the decoder selects in the state itself. -/
theorem invUnder_perform {op : Op} (hv : c.Valid) (hd : decodeUnder c.idTable ⟨s.state, op⟩ = .ok i)
    (h : perform c i s = .next t) (hs : s.InvUnder c) : t.InvUnder c := by
  obtain ⟨hwf, hparser, hlink, hhist, -, hfits⟩ := hs
  have he := perform_effect hv.ids h
  have hparser' := parserInv_perform hv.ids hd h hwf hparser
  exact ⟨he.buf_wf hwf, hparser', he.historyMoves.linkInv hlink, histInv_perform hv.ids h hfits hhist,
    (Nat.lt_succ_of_le hparser'.1).trans_le hv.stateW, fits_perform hv.ids h hfits⟩

/-- A step keeps the invariant under every valid configuration. -/
theorem invUnder_step (hv : c.Valid) (h : stepUnder c s = .next t) (hs : s.InvUnder c) :
    t.InvUnder c := by
  obtain ⟨-, rfl⟩ | ⟨op, rest, i, -, hd, h⟩ := stepUnder_next h
  · exact hs
  · exact invUnder_perform (s := { s with pending := rest }) hv hd h hs
end

/-- Settles O49: each part of the invariant is kept by the effect of the operation performed, the
parser's registers because the decoder selects the arm by the parser's own state. -/
theorem stepKeepsTheInvariant : Obligations.StepKeepsTheInvariant := by
  refine ⟨fun c s t hv hs h => invUnder_step hv h hs, fun s t hs h => ?_⟩
  rw [step_eq_stepUnder] at h
  exact invUnder_step cfg_valid h hs

end Sys2Proof.Machine
end

section
/-! PROOFS. The reset state, the frame buffer as a map of bytes, and which operations touch `connected`,
the counters and the parser (spec/10_state.md R20, R24, R27, R29, R37; spec/20_memory.md R50, R51). -/

namespace Sys2Proof.Machine

open Sys2Proof.Claims

/-! ## Reset -/

/-- The reset state meets the invariant under every configuration. -/
theorem invUnder_reset (c : Cfg) : State.reset.InvUnder c :=
  ⟨Memory.wf_nil, State.parserInv_idleParser State.reset, fun _ => ⟨rfl, rfl, rfl, rfl, rfl⟩,
    ⟨List.pairwise_singleton _ _, nofun⟩, Nat.two_pow_pos _, Stats.fits_zero c⟩

/-- Settles O5: the registers by definition, the invariant by `invUnder_reset`. -/
theorem resetStateIsIdleAndMeetsTheInvariant : Obligations.ResetStateIsIdleAndMeetsTheInvariant :=
  ⟨rfl, rfl, rfl, rfl, rfl, rfl, rfl, rfl, invUnder_reset cfg⟩

/-! ## The buffer as a map -/

theorem Memory.wfFrom_cons {lo k : Nat} {v : Byte} {m : Memory} :
    Memory.wfFrom lo ((k, v) :: m) = true ↔
      lo ≤ k ∧ k < Config.bufSize ∧ v ≠ Memory.unlisted ∧ m.wfFrom (k + 1) = true := by
  simp [Memory.wfFrom, and_assoc]

theorem Memory.read_cons (k x : Nat) (v : Byte) (m : Memory) :
    Memory.read ((k, v) :: m) x = if k = x then v else m.read x := rfl

/-- A byte that differs from what an unlisted address reads as stands at or above the first address. -/
theorem Memory.le_of_read_ne {lo a : Nat} {m : Memory} (hm : m.wfFrom lo = true)
    (h : m.read a ≠ Memory.unlisted) : lo ≤ a :=
  Nat.le_of_not_lt fun hlt => h (Memory.read_below hm hlt)

/-- A canonical buffer that reads a byte at `k` as its first entry does begins at or below `k`. -/
theorem Memory.head_le {lo k j : Nat} {v w : Byte} {m n : Memory}
    (hm : Memory.wfFrom lo ((k, v) :: m) = true) (hn : Memory.wfFrom lo ((j, w) :: n) = true)
    (h : Memory.read ((k, v) :: m) k = Memory.read ((j, w) :: n) k) : j ≤ k := by
  obtain ⟨-, -, hv, -⟩ := Memory.wfFrom_cons.mp hm
  obtain ⟨-, hj, hw, hn⟩ := Memory.wfFrom_cons.mp hn
  refine Memory.le_of_read_ne (Memory.wfFrom_cons.mpr ⟨le_rfl, hj, hw, hn⟩) (h ▸ ?_)
  rwa [Memory.read_cons, if_pos rfl]

/-- Canonical buffers that read alike are equal, from any address on (R24, R50). -/
theorem Memory.eq_of_read_eq {lo : Nat} {m n : Memory} (hm : m.wfFrom lo = true)
    (hn : n.wfFrom lo = true) (h : ∀ x, m.read x = n.read x) : m = n := by
  induction m generalizing lo n with
  | nil =>
    cases n with
    | nil => rfl
    | cons e n =>
      obtain ⟨-, -, hw, -⟩ := Memory.wfFrom_cons.mp hn
      have hread := h e.1
      rw [Memory.read_cons, if_pos rfl] at hread
      exact absurd hread.symm hw
  | cons e m ih =>
    obtain ⟨k, v⟩ := e
    obtain ⟨-, -, hv, hm'⟩ := Memory.wfFrom_cons.mp hm
    cases n with
    | nil =>
      have hread := h k
      rw [Memory.read_cons, if_pos rfl] at hread
      exact absurd hread hv
    | cons e n =>
      obtain ⟨j, w⟩ := e
      obtain ⟨-, -, -, hn'⟩ := Memory.wfFrom_cons.mp hn
      obtain rfl : k = j := le_antisymm (Memory.head_le hn hm (h j).symm) (Memory.head_le hm hn (h k))
      have hvw : v = w := by simpa [Memory.read_cons] using h k
      have htail : ∀ x, Memory.read m x = Memory.read n x := by
        intro x
        by_cases hx : k = x
        · rw [Memory.read_below hm' (by omega), Memory.read_below hn' (by omega)]
        · simpa [Memory.read_cons, hx] using h x
      rw [hvw, ih hm' hn' htail]

/-- Settles O30: read after write and the kept form are laws of the buffer; canonical buffers that
read alike are equal by `Memory.eq_of_read_eq`. -/
theorem bufferReadAfterWrite : Obligations.BufferReadAfterWrite :=
  ⟨fun _ a x b hm ha => ⟨Memory.read_write hm a x b, Memory.wf_write hm ha b⟩,
    fun _ _ hm hn h => Memory.eq_of_read_eq hm hn h⟩

/-! ## What an operation that zeroes nothing keeps -/

section
variable {c : Cfg} {i : Instr} {s t : State}

/-- Only an operation that zeroes the counters changes `connected` (R27, R29 (b)). -/
theorem Effect.connected_eq (h : Effect c s i t) (hz : ¬ zeroes i s) : t.connected = s.connected := by
  cases h with
  | reset => exact absurd (.inl rfl) hz
  | connect hc => exact absurd (.inr (.inr ⟨rfl, hc⟩)) hz
  | disconnect => exact absurd (.inr (.inl rfl)) hz
  | crchi b hc hl =>
    obtain ⟨-, hconn, -⟩ := verify_frame c (s.atVerify c b)
    exact hconn
  | _ => rfl
end

/-- Settles O52: every counter moves by sat_inc or not at all. -/
theorem countersDecreaseOnlyByZeroing : Obligations.CountersDecreaseOnlyByZeroing := by
  intro i s t hfits h hz
  exact Stats.le_iff.mp (CounterMoves.le (fun k => (exec_effect h).counterMoves hz) hfits)

/-- Settles O53: an operation that changes `connected` zeroes the counters, and of those each sets it
to its own value. -/
theorem onlyThreeOperationsChangeConnected : Obligations.OnlyThreeOperationsChangeConnected := by
  intro i s t h hne
  have hz : zeroes i s := not_not.mp fun hz => hne ((exec_effect h).connected_eq hz)
  obtain rfl | rfl | ⟨rfl, hc⟩ := hz
  · cases h; exact .inr ⟨.inr rfl, rfl⟩
  · cases h; exact .inr ⟨.inl rfl, rfl⟩
  · exact .inl ⟨rfl, by simpa [hc] using hne⟩

/-- Settles O55: by the frame of an operation that zeroes nothing, and by the reset column that a
zeroing operation leaves. -/
theorem onlyTheParserTouchesItsRegisters : Obligations.OnlyTheParserTouchesItsRegisters := by
  intro i s t h hrx
  by_cases hz : zeroes i s
  · obtain ⟨conn, r, rfl⟩ := restart_of_zeroes (exec_eq_perform i s ▸ h) hz
    exact ⟨rfl, fun hnz => absurd hz hnz⟩
  · obtain ⟨hbuf, hregs⟩ := (exec_effect h).parser_eq hrx hz
    exact ⟨hbuf, fun _ => hregs⟩

end Sys2Proof.Machine
end

section
/-! PROOFS. When an operation answers no next state (spec/20_memory.md R50; spec/40_crc.md R110;
spec/60_exceptions.md R226). -/

namespace Sys2Proof.Machine

section
variable {c : Cfg} {s : State}

/-- RX.BYTE answers where its arm does. -/
theorem rxByteCommon_answers {arm : State → Host.Outcome State Fault Refusal} {u : State}
    (h : arm (s.record.bumpBytesRcvd c) = .next u) : ∃ t, rxByteCommon c arm s = .next t := by
  cases hc : s.connected with
  | false => exact ⟨_, rxByteCommon_next.mpr (.inl ⟨hc, rfl⟩)⟩
  | true => exact ⟨u, rxByteCommon_next.mpr (.inr ⟨hc, h⟩)⟩

theorem execConnect_answers (ok : Bool) (s : State) : ∃ t, execConnect ok s = .next t := by
  obtain ⟨-, e⟩ | ⟨-, -, e⟩ | ⟨-, -, e⟩ := execConnect_cases ok s <;> exact ⟨_, e⟩

theorem execTxSend_answers (c : Cfg) (m : Message) (inst : Int) (s : State) :
    ∃ t, execTxSendUnder c m inst s = .next t := by
  obtain ⟨-, e⟩ | ⟨-, _, -, e⟩ | ⟨-, _, -, -, e⟩ | ⟨-, _, -, -, e⟩ := execTxSend_cases c m inst s <;>
    exact ⟨_, e⟩

/-- While `buf` has a byte at `cursor` every instruction answers a next state, except a CRC16 with a
length beyond its bytes, which is refused (R50, R110). -/
theorem perform_answers (c : Cfg) (i : Instr) (hcur : s.cursor.toNat < 262) :
    (∃ t, perform c i s = .next t) ∨
    ∃ bytes length initial, i = .crc16 bytes length initial ∧ bytes.length < length ∧
      perform c i s = .refused .crcLengthBeyondBytes := by
  cases i with
  | rxWait | rxType | rxInstlo | rxInsthi => exact .inl (rxByteCommon_answers rfl)
  | rxNoise => exact .inl (rxByteCommon_answers (arm := fun s => .next (s.finish .noise)) rfl)
  | rxLen b =>
    exact .inl (rxByteCommon_answers
      (arm := fun s => rxStore 4 b 5 (if b = 0 then 6 else 5) (s.setLen b)) rfl)
  | rxBadstate =>
    exact .inl (rxByteCommon_answers
      (arm := fun s => .next (s.idleParser.finish .stateCorrupt)) rfl)
  | rxBody | rxCrclo | rxCrchi => exact .inl (rxByteCommon_answers (rxPush_ok hcur))
  | decAssertMessage | decDebugMessage | decCaptureData | decDrivingCommand | decCaptureCommand
  | decStatusData | decModes | decRobotCommand | decWave | decPidParams | decTaskTimingResult
  | decUnknown => exact .inl ⟨_, codecPort_eq _ s⟩
  | encAssertMessage | encDebugMessage | encCaptureData | encDrivingCommand | encCaptureCommand
  | encStatusData | encModes | encRobotCommand | encWave | encPidParams | encRequest
  | encTaskTimingResult => exact .inl ⟨_, rfl⟩
  | reset | disconnect | statRead => exact .inl ⟨_, rfl⟩
  | connect ok => exact .inl (execConnect_answers ok s)
  | txSend m inst => exact .inl (execTxSend_answers c m inst s)
  | crc16 bytes length initial =>
    by_cases hl : length ≤ bytes.length
    · exact .inl ⟨_, execCrc16_next.mpr ⟨hl, rfl⟩⟩
    · exact .inr ⟨bytes, length, initial, rfl, Nat.lt_of_not_le hl, if_neg hl⟩

theorem stepUnder_of_idle (h : s.pending = []) : stepUnder c s = .next s := by
  simp [stepUnder, State.fetch, h]

theorem stepUnder_of_decoded {op : Op} {rest : List Op} {i : Instr} (hp : s.pending = op :: rest)
    (hd : decodeUnder c.idTable ⟨s.state, op⟩ = .ok i) :
    stepUnder c s = perform c i { s with pending := rest } := by
  simp [stepUnder, State.fetch, hp, hd]

theorem stepUnder_of_undecodable {op : Op} {rest : List Op} {e : DecodeError}
    (hp : s.pending = op :: rest) (hd : decodeUnder c.idTable ⟨s.state, op⟩ = .error e) :
    stepUnder c s = .refused (.undecodable e) := by
  simp [stepUnder, State.fetch, hp, hd]

/-- While `buf` has a byte at `cursor` a step answers a next state, or refuses the operation it would
perform: one that is not expressible, or a CRC16 with a length beyond its bytes. -/
theorem stepUnder_answers (c : Cfg) (hcur : s.cursor.toNat < 262) :
    (∃ t, stepUnder c s = .next t) ∨ ∃ op rest r, s.pending = op :: rest ∧
      stepUnder c s = .refused r ∧
      ((∃ e, decodeUnder c.idTable ⟨s.state, op⟩ = .error e ∧ r = .undecodable e) ∨
        ∃ bytes length initial,
          decodeUnder c.idTable ⟨s.state, op⟩ = .ok (.crc16 bytes length initial) ∧
          bytes.length < length ∧ r = .crcLengthBeyondBytes) := by
  cases hp : s.pending with
  | nil => exact .inl ⟨s, stepUnder_of_idle hp⟩
  | cons op rest =>
    cases hd : decodeUnder c.idTable ⟨s.state, op⟩ with
    | error e =>
      exact .inr ⟨op, rest, _, rfl, stepUnder_of_undecodable hp hd, .inl ⟨e, hd, rfl⟩⟩
    | ok i =>
      rw [stepUnder_of_decoded hp hd]
      obtain ht | ⟨bytes, length, initial, rfl, hl, e⟩ :=
        perform_answers (s := { s with pending := rest }) c i hcur
      · exact .inl ht
      · exact .inr ⟨op, rest, _, rfl, e, .inr ⟨bytes, length, initial, hd, hl, rfl⟩⟩
end

/-- Settles O50: the invariant keeps `cursor` below the end of `buf`, so a step answers or refuses. -/
theorem noStepFaults : Obligations.NoStepFaults := by
  intro s hs
  obtain ⟨-, ⟨-, -, -, -, -, -, -, -, hcursor⟩, -⟩ := hs
  obtain ⟨t, e⟩ | ⟨op, rest, r, hp, e, hr⟩ := stepUnder_answers cfg (Nat.lt_succ_of_le hcursor) <;>
    rw [← step_eq_stepUnder] at e
  · exact ⟨fun _ h => (nomatch e.symm.trans h), fun _ h => (nomatch e.symm.trans h)⟩
  · refine ⟨fun _ h => (nomatch e.symm.trans h), fun r' h => ⟨op, rest, hp, ?_⟩⟩
    cases e.symm.trans h
    exact hr

end Sys2Proof.Machine
end

section
/-! PROOFS. The tagged form of the parser (spec/10_state.md R35): the tag of each state code, and one
byte in each. -/

namespace Sys2Proof.Machine

open Sys2Proof.Claims

section
variable {s : State}

theorem tagOf_wait (h : s.state = 0) : tagOf s = .waitForStart := by simp [tagOf, h]

theorem tagOf_header (h0 : 1 ≤ s.state) (h4 : s.state ≤ 4) : tagOf s = .readHeader s.state := by
  obtain h | h | h | h : s.state = 1 ∨ s.state = 2 ∨ s.state = 3 ∨ s.state = 4 := by omega
  all_goals simp [tagOf, h]

theorem tagOf_body (h : s.state = 5) :
    tagOf s = .readBody (5 + s.len.toNat - s.cursor.toNat) := by simp [tagOf, h]

theorem tagOf_crclo (h : s.state = 6) : tagOf s = .readCrc 0 := by simp [tagOf, h]

theorem tagOf_crchi (h : s.state = 7) : tagOf s = .readCrc 1 := by simp [tagOf, h]
end

section
variable {c : Cfg} {s t : State} {b : Byte}

/-- A header byte before the length byte counts one more of the header (R123 to R125). -/
theorem tagOf_afterStore {a : Nat} {cur : BitVec 9} {p : Nat} (h1 : 1 ≤ p) (h3 : p ≤ 3)
    (hs : s.state = p) : tagOf (s.afterStore c a b cur (p + 1)) = tagNext (tagOf s) b := by
  have hlt : p < 4 := Nat.lt_succ_of_le h3
  rw [tagOf_header (s := s) (by omega) (by omega), hs, tagNext, if_pos hlt]
  exact tagOf_header (Nat.le_add_left 1 p) hlt

/-- The length byte says how much of the body remains, or that none does (R126). -/
theorem tagOf_afterLen (hs : s.state = 4) :
    tagOf ((s.setLen b).afterStore c 4 b 5 (if b = 0 then 6 else 5)) = tagNext (tagOf s) b := by
  rw [tagOf_header (s := s) (by omega) hs.le, hs, tagNext, if_neg (lt_irrefl 4)]
  split
  · exact tagOf_crclo rfl
  · rw [tagOf_body rfl, State.afterStore_len, State.setLen_len, State.afterStore_cursor]
    exact congrArg Tagged.readBody (Nat.add_sub_cancel_left 5 b.toNat)

/-- A body byte leaves one fewer, and the last one the CRC (R127). -/
theorem tagOf_afterBody {r : OpResult} (hs : s.state = 5)
    (hcur : s.cursor.toNat < 5 + s.len.toNat) :
    tagOf (((s.atVerify c b).setState
      (if (s.cursor + 1).toNat = 5 + s.len.toNat then 6 else 5)).finish r) = tagNext (tagOf s) b := by
  have hmax : s.len.toNat < 256 := s.len.isLt
  have hnext : (s.cursor + 1).toNat = s.cursor.toNat + 1 := by bv_omega
  rw [tagOf_body hs, tagNext, hnext]
  by_cases hlast : s.cursor.toNat + 1 = 5 + s.len.toNat
  · rw [if_pos hlast, if_pos (by omega), tagOf_crclo rfl]
  · rw [if_neg hlast, if_neg (by omega), tagOf_body rfl]
    simp only [State.finish_len, State.finish_cursor, State.setState_len, State.setState_cursor,
      State.atVerify_len, State.atVerify_cursor, hnext, Nat.sub_add_eq]

/-- Each byte received while connected moves the tagged form as R35's function does, in every state
code R34 allows, with a body byte still missing in ReadBody. -/
theorem Moved.tagOf_eq (h : Moved c s b t) (hmax : s.state ≤ 7)
    (hbody : s.state = 5 → s.cursor.toNat < 5 + s.len.toNat) : tagOf t = tagNext (tagOf s) b := by
  cases h with
  | wait h0 hb =>
    rw [tagOf_wait h0, tagNext, if_pos hb]
    exact tagOf_header le_rfl (Nat.le_add_left 1 3)
  | noise h0 hb =>
    rw [tagOf_wait h0, tagNext, if_neg hb]
    exact tagOf_wait h0
  | type hs | instlo hs | insthi hs => exact tagOf_afterStore (by decide) (by decide) hs
  | len hs => exact tagOf_afterLen hs
  | body hs hl => exact tagOf_afterBody hs (hbody hs)
  | crclo hs hl =>
    rw [tagOf_crclo hs, tagNext, if_pos rfl]
    exact tagOf_crchi rfl
  | crchi hs hl =>
    rw [tagOf_crchi hs, tagNext, if_neg Nat.one_ne_zero]
    exact tagOf_wait rfl
  | badstate hs => omega
end

/-- Settles O29: the invariant gives the two facts that `Moved.tagOf_eq` asks of the state. -/
theorem taggedParserIsTheSameMachine : Obligations.TaggedParserIsTheSameMachine := by
  intro s t b hs hc h
  obtain ⟨-, ⟨hmax, -, -, hbody, -⟩, -⟩ := hs
  refine ((rxByte_moved hc).mp h).tagOf_eq hmax fun h5 => ?_
  obtain ⟨-, -, hlt⟩ := hbody h5
  exact hlt

end Sys2Proof.Machine
end

section
/-! PROOFS. The step, and the stop at the end of the frame buffer (spec/20_memory.md R50, R57, R58). -/

namespace Sys2Proof.Machine

/-- Settles O4: each clause is the equation of the step for one form of the waiting operations. -/
theorem stepRunsTheDecodedOperation : Obligations.StepRunsTheDecodedOperation := by
  refine ⟨fun s op rest i hp hd => ?_, fun s op rest e hp hd => ?_, fun s hp => ?_⟩ <;>
    rw [step_eq_stepUnder]
  · rw [exec_eq_perform]
    exact stepUnder_of_decoded hp hd
  · exact stepUnder_of_undecodable hp hd
  · exact stepUnder_of_idle hp

/-- An arm that stores at `cursor` faults where `buf` has no byte (R50). -/
theorem rxPush_fault {b : Byte} {rest : State → State} {s : State} (h : 262 ≤ s.cursor.toNat) :
    rxPush b rest s = .fault .bufIndexOutOfRange :=
  if_neg fun hpush => absurd (of_decide_eq_true hpush) (Nat.not_lt_of_le h)

/-- Settles O19: each of the three arms stores at `cursor`. -/
theorem rxBeyondBufferFaults : Obligations.RxBeyondBufferFaults := by
  intro b s i hc hcur hi
  have harm : ∀ rest, rxByteCommon cfg (rxPush b rest) s = .fault .bufIndexOutOfRange := fun rest =>
    (rxByteCommon_live hc).trans (rxPush_fault hcur)
  simp only [List.mem_cons, List.not_mem_nil, or_false] at hi
  obtain rfl | rfl | rfl := hi <;> exact harm _

end Sys2Proof.Machine
end

section
/-! PROOFS. STAT.READ (spec/44_control.md R205, R206; spec/20_memory.md R60): the points each of the six
values may come from, and how an operation moves a reader's window. -/

namespace Sys2Proof.Machine

open Sys2Proof.Claims

/-! ## The values one STAT.READ returns -/

/-- The points whose value of counter `k` a STAT.READ may return: `msgs_rcvd` has R60's bound too. -/
def State.windowOf (s : State) (reader : Reader) (k : Fin 6) : List Past :=
  if k = 3 then s.windowMsgs reader else s.window reader.agent

/-- The lag of counter `k`, by R28's index. -/
def lagOf (l : Lag) : Fin 6 → Nat
  | 0 => l.bytesSent
  | 1 => l.msgsSent
  | 2 => l.bytesRcvd
  | 3 => l.msgsRcvd
  | 4 => l.badCrc
  | 5 => l.dropped

/-- The lag with the given number for each counter. -/
def lagWith (f : Fin 6 → Nat) : Lag := ⟨f 0, f 1, f 2, f 3, f 4, f 5⟩

theorem lagOf_lagWith (f : Fin 6 → Nat) (k : Fin 6) : lagOf (lagWith f) k = f k :=
  match k with
  | 0 | 1 | 2 | 3 | 4 | 5 => rfl

/-- Each value comes from its counter's own window, under its own lag (R206). -/
theorem counter_statsSeen (s : State) (reader : Reader) (lag : Lag) (k : Fin 6) :
    counter (s.statsSeen reader lag) k = counter (s.pick (s.windowOf reader k) (lagOf lag k)) k :=
  match k with
  | 0 | 1 | 2 | 3 | 4 | 5 => rfl

/-- The points a STAT.READ may return a counter of are the admitted ones (R206, R60). -/
theorem mem_windowOf {s : State} {reader : Reader} {k : Fin 6} {p : Past} :
    p ∈ s.windowOf reader k ↔ Admitted s reader k p := by
  unfold State.windowOf Admitted
  split
  · next hk =>
    simp only [State.windowMsgs, List.mem_filter, decide_eq_true_eq]
    exact and_congr_right fun _ => (imp_iff_right hk).symm
  · next hk => exact (and_iff_left fun h => absurd h hk).symm

theorem windowOf_ne_nil (s : State) (reader : Reader) (k : Fin 6) : s.windowOf reader k ≠ [] := by
  unfold State.windowOf
  split
  · simp [State.windowMsgs_head]
  · simp [State.window_head]

/-- A value read is that of an admitted point. -/
theorem exists_admitted (s : State) (reader : Reader) (lag : Lag) (k : Fin 6) :
    ∃ p, Admitted s reader k p ∧ counter (s.statsSeen reader lag) k = counter p.stats k := by
  obtain ⟨p, hp, e⟩ := s.pick_mem (windowOf_ne_nil s reader k) (lagOf lag k)
  exact ⟨p, mem_windowOf.mp hp, by rw [counter_statsSeen, e]⟩

/-- With no lag a STAT.READ returns the current values. -/
theorem statsSeen_of_no_lag (s : State) (reader : Reader) :
    s.statsSeen reader ⟨0, 0, 0, 0, 0, 0⟩ = s.stats := by
  simp [State.statsSeen]

/-- Each choice of admitted points is what a STAT.READ returns under some lag. -/
theorem exists_lag {s : State} {reader : Reader} {pick : Fin 6 → Past}
    (h : ∀ k, Admitted s reader k (pick k)) :
    ∃ lag, ∀ k, counter (s.statsSeen reader lag) k = counter (pick k).stats k := by
  choose f hf using fun k => s.pick_of_mem (mem_windowOf.mpr (h k))
  exact ⟨lagWith f, fun k => by rw [counter_statsSeen, lagOf_lagWith, hf]⟩

/-- Settles O9: the admitted points are those of the counter's window, and a lag is an index into it. -/
theorem statReadReturnsExactlyTheAdmittedValues :
    Obligations.StatReadReturnsExactlyTheAdmittedValues := by
  refine ⟨fun s reader lag => ?_, fun s reader pick hpick => ?_⟩
  · refine ⟨s.statsSeen reader lag, _, rfl, rfl, ?_, fun r hr => ?_, exists_admitted s reader lag, ?_⟩
    · exact (s.markOf_setMark reader.agent reader.agent).trans (if_pos rfl)
    · exact (s.markOf_setMark reader.agent r).trans (if_neg hr)
    · rintro rfl
      exact statsSeen_of_no_lag s reader
  · obtain ⟨lag, hlag⟩ := exists_lag hpick
    exact ⟨lag, _, _, rfl, rfl, hlag⟩

/-! ## A reader's window along a run -/

section
variable {c : Cfg} {i : Instr} {s t : State}

/-- An operation adds at most the present point to a reader's window. -/
theorem HistoryMoves.mem_window (h : HistoryMoves s t) {agent : Nat} {p : Past}
    (hp : p ∈ t.window agent) : p = t.now ∨ p ∈ s.window agent := by
  rw [State.window_head, List.mem_cons] at hp
  refine hp.imp_right fun hp => ?_
  rw [State.window_head]
  cases h with
  | answered r => exact List.mem_cons_of_mem _ hp
  | read reader r =>
    rw [State.finish_marks, State.markOf_setMark] at hp
    split at hp
    · simp at hp
    · exact List.mem_cons_of_mem _ hp
  | restarted conn r => simp at hp
  | recorded t hc hh hm hf =>
    rw [hh, hm, List.length_cons] at hp
    by_cases hmark : markOf agent s.marks ≤ s.hist.length
    · rwa [Nat.sub_add_comm hmark, List.take_succ_cons] at hp
    · rw [Nat.sub_eq_zero_of_le (Nat.lt_of_not_le hmark)] at hp
      simp at hp

theorem HistoryMoves.frames_le (h : HistoryMoves s t) : s.frames ≤ t.frames := by
  cases h with
  | recorded t hc hh hm hf => exact hf
  | _ => exact le_rfl

/-- An operation that zeroes nothing leaves no counter and no count of frames smaller (R29 (a)). -/
theorem Effect.now_le (h : Effect c s i t) (hz : ¬ zeroes i s) (hfits : s.stats.fits c = true) :
    s.now.le t.now = true :=
  Past.le_iff.mpr ⟨CounterMoves.le (fun _ => h.counterMoves hz) hfits, h.historyMoves.frames_le⟩
end

/-- Along a run that zeroes nothing the counters do not decrease, and what a reader's window gains is
not before the run's start. -/
theorem window_of_run {is : List Instr} {s t : State} (h : RunsUnzeroed is s t)
    (hfits : s.stats.fits cfg = true) : s.now.le t.now = true ∧
      ∀ agent, ∀ p ∈ t.window agent, s.now.le p = true ∨ p ∈ s.window agent := by
  induction is generalizing s with
  | nil => cases h; exact ⟨Past.le_refl _, fun _ _ hp => .inr hp⟩
  | cons i is ih =>
    obtain ⟨hz, u, hu, hrun⟩ := h
    have he := exec_effect hu
    have hsu := he.now_le hz hfits
    obtain ⟨hut, hwin⟩ :=
      ih hrun (fits_perform MsgType.id_injective (exec_eq_perform i s ▸ hu) hfits)
    refine ⟨Past.le_trans hsu hut, fun agent p hp => ?_⟩
    obtain hup | hp := hwin agent p hp
    · exact .inl (Past.le_trans hsu hup)
    · obtain rfl | hp := he.historyMoves.mem_window hp
      · exact .inl hsu
      · exact .inr hp

/-- The points of a window are not after the present (R29 (a)). -/
theorem le_now_of_mem_window {s : State} (h : s.HistInv) {agent : Nat} {p : Past}
    (hp : p ∈ s.window agent) : p.le s.now = true := by
  obtain ⟨hord, -⟩ := h
  obtain rfl | hp := List.mem_cons.mp (List.mem_of_mem_take hp)
  · exact Past.le_refl _
  · exact List.rel_of_pairwise_cons hord hp

/-- After its own STAT.READ a reader's window is the present point alone. -/
theorem window_after_read (s : State) (agent : Nat) (r : OpResult) :
    ((s.setMark agent).finish r).window agent = [s.now] := by
  rw [State.window_head, State.finish_marks, State.markOf_setMark, if_pos rfl]
  simp [State.now]

/-- A frame whose last byte dispatched a message takes the next number (R60, R131). -/
theorem frames_of_dispatched {s t : State} {b ty : Byte} {inst : U16} {m : Message}
    (h : exec (.rxCrchi b) s = .next t) (hr : t.result = some (.dispatched ty inst m)) :
    t.frames = s.frames + 1 := by
  obtain ⟨-, rfl⟩ | ⟨-, h⟩ := rxByteCommon_next.mp h
  · cases hr
  · obtain ⟨-, rfl⟩ := rxPush_next.mp h
    exact verify_induct (c := cfg) (s := s.atVerify cfg b)
      (P := fun u => u.result = some (.dispatched ty inst m) → u.frames = s.frames + 1)
      nofun (fun _ _ _ _ => rfl) (fun _ _ _ _ _ => rfl) hr

/-- Settles O10: by `window_of_run`. After the first read the window holds no earlier point; and of the
points before the frame none has its number. -/
theorem statReadNeverGoesBackwards : Obligations.StatReadNeverGoesBackwards := by
  constructor
  · intro s t u w r₁ r₂ l₁ l₂ is v₁ v₂ hs hfits hagent h₁ hv₁ hrun h₂ hv₂ k
    cases h₁; cases hv₁; cases h₂; cases hv₂
    obtain ⟨p, ⟨hp, -⟩, e⟩ := exists_admitted s r₁ l₁ k
    obtain ⟨q, ⟨hq, -⟩, e'⟩ := exists_admitted u r₂ l₂ k
    obtain ⟨-, hwin⟩ := window_of_run hrun hfits
    have hps : p.le s.now = true := le_now_of_mem_window hs hp
    have hsq : s.now.le q = true := by
      obtain hq | hq := hwin r₂.agent q hq
      · exact hq
      · rw [← hagent, window_after_read, List.mem_singleton] at hq
        exact hq ▸ Past.le_refl _
    rw [e, e']
    exact Stats.le_iff.mp (Past.le_iff.mp (Past.le_trans hps hsq)).1 k
  · intro s t u w b ty inst m reader lag is v hs hfits h hr hrun hseen hread hv
    cases hread; cases hv
    have hframes := frames_of_dispatched h hr
    have hft := fits_perform MsgType.id_injective (exec_eq_perform _ s ▸ h) hfits
    obtain ⟨htu, hwin⟩ := window_of_run hrun hft
    obtain ⟨p, ⟨hp, hcount⟩, ep⟩ := exists_admitted u reader lag 3
    have hpt : t.frames ≤ p.frames :=
      (le_min hseen (Past.le_iff.mp htu).2).trans (hcount rfl)
    have htp : t.now.le p = true := by
      obtain hp | hp := hwin reader.agent p hp
      · exact hp
      · obtain rfl | hp := (exec_effect h).historyMoves.mem_window hp
        · exact Past.le_refl _
        · have hold : p.frames ≤ s.frames := (Past.le_iff.mp (le_now_of_mem_window hs hp)).2
          omega
    exact (Stats.le_iff.mp (Past.le_iff.mp htp).1 3).trans_eq ep.symm

end Sys2Proof.Machine
end

section
/-! PROOFS. Receiving and sending are independent (spec/20_memory.md R61): what VERIFY and TX.SEND do is
chosen by what the other leaves alone, and their updates commute but for the model's own fields. -/

namespace Sys2Proof.Machine

open Sys2Proof.Claims

/-! ## VERIFY by what it reads -/

/-- The CRC that VERIFY computes over the buffered header and body equals the one received (R131). -/
def CrcAgrees (c : Cfg) (buf : Memory) (len : Byte) : Prop :=
  crc16 c (buf.slice 0 (5 + len.toNat)) (5 + len.toNat) Config.crcInit =
    BitVec.ofNat 16 (buf.readLe (5 + len.toNat) 2)

theorem verify_of_crcAgrees {c : Cfg} {s : State} (h : CrcAgrees c s.buf s.len) :
    verify c s = dec c (s.buf.read 1) (BitVec.ofNat 16 (s.buf.readLe 2 2)) (s.buf.slice 5 s.len.toNat)
      (s.bumpMsgsRcvd c) :=
  if_neg (not_not.mpr h)

theorem verify_of_not_crcAgrees {c : Cfg} {s : State} (h : ¬ CrcAgrees c s.buf s.len) :
    verify c s = (s.bumpBadCrc c).finish .badCrc :=
  if_pos h

/-- What VERIFY does to a state. -/
inductive VerifyEffect (c : Cfg) : (State → State) → Prop
  | badCrc : VerifyEffect c fun s => (s.bumpBadCrc c).finish .badCrc
  | dispatch (t : Byte) (inst : U16) (m : Message) :
      VerifyEffect c fun s => dispatchMsg t inst m (s.bumpMsgsRcvd c)
  | fail (r : OpResult) : VerifyEffect c fun s => failDecode c r (s.bumpMsgsRcvd c)

/-- Which of its effects VERIFY has depends on `buf` and `len` alone. -/
theorem verify_effect (c : Cfg) (buf : Memory) (len : Byte) : ∃ run, VerifyEffect c run ∧
    ∀ s : State, s.buf = buf → s.len = len → verify c s = run s := by
  by_cases hcrc : CrcAgrees c buf len
  · obtain ⟨m, e⟩ | ⟨r, -, e⟩ :=
      dec_cases c (buf.read 1) (BitVec.ofNat 16 (buf.readLe 2 2)) (buf.slice 5 len.toNat)
    · refine ⟨_, .dispatch (buf.read 1) (BitVec.ofNat 16 (buf.readLe 2 2)) m, ?_⟩
      rintro s rfl rfl
      rw [verify_of_crcAgrees hcrc, e]
    · refine ⟨_, .fail r, ?_⟩
      rintro s rfl rfl
      rw [verify_of_crcAgrees hcrc, e]
  · refine ⟨_, .badCrc, ?_⟩
    rintro s rfl rfl
    exact verify_of_not_crcAgrees hcrc

/-! ## TX.SEND by what it reads -/

/-- What TX.SEND does to a connected state (R190). -/
inductive SendEffect (c : Cfg) : (State → State) → Prop
  | refused (r : OpResult) : SendEffect c fun s => s.finish r
  | sent (f : List Byte) : SendEffect c (sendFrame c f)

/-- Which of its effects TX.SEND has while connected depends on its operands alone. -/
theorem execTxSend_effect (c : Cfg) (m : Message) (inst : Int) : ∃ send, SendEffect c send ∧
    ∀ s : State, s.connected = true → execTxSendUnder c m inst s = .next (send s) := by
  cases he : sendBody c m with
  | error f => exact ⟨_, .refused (.encodingError f), fun s hc => by simp [execTxSendUnder, hc, he]⟩
  | ok body =>
    cases hi : instFits inst with
    | false =>
      exact ⟨_, .refused (.encodingError .inst), fun s hc => by simp [execTxSendUnder, hc, he, hi]⟩
    | true =>
      exact ⟨_, .sent (buildFrame c (c.idTable m.type) (BitVec.ofInt 16 inst) body), fun s hc => by
        simp [execTxSendUnder, hc, he, hi]⟩

theorem execTxSend_of_not_connected {c : Cfg} {m : Message} {inst : Int} {s : State}
    (hc : s.connected = false) : execTxSendUnder c m inst s = .next (s.finish .notConnected) := by
  simp [execTxSendUnder, hc]

/-! ## The two in either order -/

section
variable {c : Cfg} {s t : State} {b : Byte} {send : State → State}

/-- A send leaves `connected` and the parser alone. -/
theorem SendEffect.frame (h : SendEffect c send) (s : State) :
    (send s).connected = s.connected ∧ (send s).state = s.state ∧ (send s).cursor = s.cursor ∧
      (send s).len = s.len ∧ (send s).buf = s.buf := by
  cases h <;> exact ⟨rfl, rfl, rfl, rfl, rfl⟩

/-- The end of a frame and a send in either order. -/
theorem SendEffect.sameCore_verify (h : SendEffect c send) (s : State) (b : Byte) :
    SameCore (send (verify c (s.atVerify c b)).idleParser)
      (verify c ((send s).atVerify c b)).idleParser := by
  obtain ⟨run, hrun, e⟩ := verify_effect c (s.atVerify c b).buf (s.atVerify c b).len
  obtain ⟨-, -, hcursor, hlen, hbuf⟩ := h.frame s
  rw [e _ rfl rfl, e ((send s).atVerify c b) (by simp [hbuf, hcursor]) (by simp [hlen])]
  cases h <;> cases hrun <;>
    simp [SameCore, sendFrame, dispatchMsg, failDecode, State.atVerify]

/-- A byte received and a send in either order: the same arm runs, with the same effect. -/
theorem Moved.send_comm (h : Moved c s b t) (hsend : SendEffect c send) :
    ∃ u, Moved c (send s) b u ∧ SameCore (send t) u := by
  obtain ⟨-, hstate, hcursor, -⟩ := hsend.frame s
  cases h with
  | crchi hs hl =>
    exact ⟨_, .crchi (hstate.trans hs) (hcursor ▸ hl), hsend.sameCore_verify s b⟩
  | wait hs hb =>
    cases hsend <;> refine ⟨_, .wait hs hb, ?_⟩ <;> simp [SameCore, sendFrame, State.afterStore]
  | noise hs hb =>
    cases hsend <;> refine ⟨_, .noise hs hb, ?_⟩ <;> simp [SameCore, sendFrame]
  | type hs =>
    cases hsend <;> refine ⟨_, .type hs, ?_⟩ <;> simp [SameCore, sendFrame, State.afterStore]
  | instlo hs =>
    cases hsend <;> refine ⟨_, .instlo hs, ?_⟩ <;> simp [SameCore, sendFrame, State.afterStore]
  | insthi hs =>
    cases hsend <;> refine ⟨_, .insthi hs, ?_⟩ <;> simp [SameCore, sendFrame, State.afterStore]
  | len hs =>
    cases hsend <;> refine ⟨_, .len hs, ?_⟩ <;> simp [SameCore, sendFrame, State.afterStore]
  | body hs hl =>
    cases hsend <;> refine ⟨_, .body hs hl, ?_⟩ <;> simp [SameCore, sendFrame, State.atVerify]
  | crclo hs hl =>
    cases hsend <;> refine ⟨_, .crclo hs hl, ?_⟩ <;> simp [SameCore, sendFrame, State.atVerify]
  | badstate hs =>
    cases hsend <;> refine ⟨_, .badstate hs, ?_⟩ <;> simp [SameCore, sendFrame]

/-- A byte received while connected leaves the link connected (R27). -/
theorem Moved.connected_eq (h : Moved c s b t) : t.connected = s.connected := by
  cases h with
  | crchi hs hl =>
    obtain ⟨-, hconn, -⟩ := verify_frame c (s.atVerify c b)
    exact hconn
  | _ => rfl
end

/-- Settles O56: while connected by `Moved.send_comm`; while not, neither does anything. -/
theorem receiveAndSendCommute : Obligations.ReceiveAndSendCommute := by
  intro b m n s t u t' u' hrx htx htx' hrx'
  rw [exec_eq_perform] at htx htx'
  cases hc : s.connected with
  | false =>
    cases (rxByte_ignored hc).symm.trans hrx
    cases (execTxSend_of_not_connected hc).symm.trans htx'
    cases (execTxSend_of_not_connected hc).symm.trans htx
    cases (rxByte_ignored hc).symm.trans hrx'
    exact ⟨rfl, rfl, rfl, rfl, rfl, rfl, rfl, rfl⟩
  | true =>
    obtain ⟨send, hsend, e⟩ := execTxSend_effect cfg m n
    have hmoved := (rxByte_moved hc).mp hrx
    cases (e t (hmoved.connected_eq.trans hc)).symm.trans htx
    cases (e s hc).symm.trans htx'
    obtain ⟨hconn, -⟩ := hsend.frame s
    obtain ⟨v, hv, hcore⟩ := hmoved.send_comm hsend
    cases ((rxByte_moved (hconn.trans hc)).mpr hv).symm.trans hrx'
    exact hcore

end Sys2Proof.Machine
end

section
/-! PROOFS. The encoders and the decoders (spec/30_encoding.md R78 to R90; spec/42_codec_decode.md R145
to R160; spec/43_codec_encode.md R171 to R184): when each encoder succeeds and the bytes it then writes,
and what the decoders read in them. -/

namespace Sys2Proof.Machine

open Sys2Proof.Claims

/-! ## Writing fields one after the other -/

/-- `v` fits an unsigned field of `n` bytes (R171). -/
def FitsBytes (n : Nat) (v : Int) : Prop := 0 ≤ v ∧ v < (2 : Int) ^ (8 * n)

section
variable {n : Nat} {field : Field} {ws : List (Except Field (List Byte))} {bs : List Byte}

theorem putU_ok_iff {v : Int} : putU n v field = .ok bs ↔ FitsBytes n v ∧ bs = le v.toNat n :=
  putU_ok.trans and_assoc.symm

theorem putAll_nil_ok : putAll [] = .ok bs ↔ bs = [] := by
  simp [eq_comm]

/-- A writer that succeeds under `P` with the bytes `x`, in front of others. -/
theorem putAll_ok_of_writer {w : Except Field (List Byte)} {P : Prop} {x : List Byte}
    (hw : ∀ a, w = .ok a ↔ P ∧ a = x) :
    putAll (w :: ws) = .ok bs ↔ P ∧ ∃ rest, putAll ws = .ok rest ∧ bs = x ++ rest := by
  simp only [putAll_cons_ok, hw]
  constructor
  · rintro ⟨a, rest, ⟨hp, rfl⟩, hws, rfl⟩
    exact ⟨hp, rest, hws, rfl⟩
  · rintro ⟨hp, rest, hws, rfl⟩
    exact ⟨x, rest, ⟨hp, rfl⟩, hws, rfl⟩

theorem putAll_putU_ok {v : Int} : putAll (putU n v field :: ws) = .ok bs ↔
    FitsBytes n v ∧ ∃ rest, putAll ws = .ok rest ∧ bs = le v.toNat n ++ rest :=
  putAll_ok_of_writer fun _ => putU_ok_iff

theorem putAll_putF32_ok {x : F32} : putAll (putF32 x :: ws) = .ok bs ↔
    ∃ rest, putAll ws = .ok rest ∧ bs = le x.toNat 4 ++ rest := by
  simp [putAll_cons_ok, putF32]

theorem putAll_putChar_ok {s : List Byte} : putAll (putChar n s field :: ws) = .ok bs ↔
    s.length ≤ n ∧ ∃ rest, putAll ws = .ok rest ∧ bs = padTo n s ++ rest :=
  putAll_ok_of_writer fun _ => putChar_ok

theorem putAll_putRaw_ok {s : List Byte} : putAll (putRaw n s field :: ws) = .ok bs ↔
    s.length = n ∧ ∃ rest, putAll ws = .ok rest ∧ bs = s ++ rest :=
  putAll_ok_of_writer fun _ => putRaw_ok

/-- The writer of the telemetry list succeeds on a list of the right length alone (R177). -/
theorem putTelem_ok {telem : List F32} : putTelem n telem = .ok bs ↔
    telem.length = n ∧ bs = telem.flatMap fun x => le x.toNat 4 := by
  unfold putTelem
  split
  · next h => simp [h]
  · next h => simp [not_not.mp h, putAll_f32s, eq_comm]

theorem putAll_putTelem_ok {telem : List F32} : putAll (putTelem n telem :: ws) = .ok bs ↔
    telem.length = n ∧ ∃ rest, putAll ws = .ok rest ∧
      bs = (telem.flatMap fun x => le x.toNat 4) ++ rest :=
  putAll_ok_of_writer fun _ => putTelem_ok
end

/-! ## Reading the fields back -/

section
variable {n o : Nat} (xs ys : List Byte)

theorem uintAt_here {v : Int} (hv : FitsBytes n v) : uintAt (le v.toNat n ++ ys) 0 n = v := by
  rw [uintAt, bytesAt_here _ _ _ (le_length ..)]
  exact uint_roundtrip hv.1 hv.2

theorem uintAt_skip (h : xs.length ≤ o) :
    uintAt (xs ++ ys) o n = uintAt ys (o - xs.length) n := by
  rw [uintAt, uintAt, bytesAt_skip _ _ _ _ h]

theorem f32At_here (x : F32) : f32At (le x.toNat 4 ++ ys) 0 = x := by
  rw [f32At, bytesAt_here _ _ _ (le_length ..)]
  exact f32_roundtrip x

theorem f32At_skip (h : xs.length ≤ o) : f32At (xs ++ ys) o = f32At ys (o - xs.length) := by
  rw [f32At, f32At, bytesAt_skip _ _ _ _ h]

theorem f32sAt_here (fs : List F32) :
    f32sAt ((fs.flatMap fun x => le x.toNat 4) ++ ys) 0 fs.length = fs :=
  f32sAt_flatMap fs [] ys

theorem f32sAt_skip (h : xs.length ≤ o) : f32sAt (xs ++ ys) o n = f32sAt ys (o - xs.length) n := by
  refine List.map_congr_left fun i _ => ?_
  rw [f32At_skip xs ys (Nat.le_add_right_of_le h), Nat.sub_add_comm h]
end

/-! ## Each body has its layout's size, and its decoder gives the message back (R160, R184) -/

section
variable {c : Cfg} {body : List Byte}

theorem bodyAssertMessage_roundtrip {m : AssertMessage} (h : bodyAssertMessage m = .ok body) :
    body.length = 208 ∧ decodeAssertMessage body = { m with message := padTo 200 m.message } := by
  simp only [bodyAssertMessage, putAll_putU_ok, putAll_putChar_ok, putAll_nil_ok, exists_eq_left,
    and_assoc, exists_and_left] at h
  obtain ⟨haction, hmessage, hvalid, rfl⟩ := h
  have hpad := padTo_length hmessage
  constructor
  · simp [hpad, Config.textCap]
  · simp [-List.append_nil, decodeAssertMessage, uintAt_here, uintAt_skip, bytesAt_here, bytesAt_skip,
      haction, hvalid, hpad, Config.textCap]

theorem bodyDebugMessage_roundtrip {m : DebugMessage} (h : bodyDebugMessage m = .ok body) :
    body.length = 204 ∧ decodeDebugMessage body = { m with message := padTo 200 m.message } := by
  simp only [bodyDebugMessage, putAll_putU_ok, putAll_putChar_ok, putAll_nil_ok, exists_eq_left,
    and_assoc, exists_and_left] at h
  obtain ⟨hmessage, hvalid, rfl⟩ := h
  have hpad := padTo_length hmessage
  constructor
  · simp [hpad, Config.textCap]
  · simp [-List.append_nil, decodeDebugMessage, uintAt_here, uintAt_skip, bytesAt_here,
      hvalid, hpad, Config.textCap]

theorem bodyCaptureData_roundtrip {m : CaptureData} (h : bodyCaptureData m = .ok body) :
    body.length = 36 ∧ decodeCaptureData body = m := by
  simp only [bodyCaptureData, putAll_putF32_ok, putAll_nil_ok, exists_eq_left] at h
  subst h
  constructor
  · simp
  · simp [-List.append_nil, decodeCaptureData, f32At_here, f32At_skip]

theorem bodyDrivingCommand_roundtrip {m : DrivingCommand} (h : bodyDrivingCommand m = .ok body) :
    body.length = 12 ∧ decodeDrivingCommand body = m := by
  simp only [bodyDrivingCommand, putAll_putU_ok, putAll_putF32_ok, putAll_nil_ok,
    exists_eq_left] at h
  obtain ⟨hmovement, rfl⟩ := h
  constructor
  · simp
  · simp [-List.append_nil, decodeDrivingCommand, uintAt_here, f32At_here, f32At_skip, hmovement]

theorem bodyCaptureCommand_roundtrip {m : CaptureCommand} (h : bodyCaptureCommand m = .ok body) :
    body.length = 12 ∧ decodeCaptureCommand body = m := by
  simp only [bodyCaptureCommand, putAll_putU_ok, putAll_nil_ok, exists_eq_left, and_assoc,
    exists_and_left] at h
  obtain ⟨hstart, hpaused, hfreq, hdesired, htotal, rfl⟩ := h
  constructor
  · simp
  · simp [-List.append_nil, decodeCaptureCommand, uintAt_here, uintAt_skip, hstart, hpaused, hfreq,
      hdesired, htotal]

theorem bodyModes_roundtrip {m : Modes} (h : bodyModes m = .ok body) :
    body.length = 3 ∧ decodeModes body = m := by
  simp only [bodyModes, putAll_putU_ok, putAll_nil_ok, exists_eq_left, and_assoc,
    exists_and_left] at h
  obtain ⟨hmain, hsub, hstate, rfl⟩ := h
  constructor
  · simp
  · simp [-List.append_nil, decodeModes, uintAt_here, uintAt_skip, hmain, hsub, hstate]

theorem bodyRobotCommand_roundtrip {m : RobotCommand} (h : bodyRobotCommand m = .ok body) :
    body.length = 1 ∧ decodeRobotCommand body = m := by
  obtain ⟨hcommand, rfl⟩ := putU_ok_iff.mp h
  constructor
  · simp
  · have hread := uintAt_here [] hcommand
    rw [List.append_nil] at hread
    simp [decodeRobotCommand, hread]

theorem bodyWave_roundtrip {m : Wave} (h : bodyWave c m = .ok body) :
    body.length = c.waveSize ∧ decodeWave c body = m := by
  obtain ⟨hlen, rfl⟩ := putRaw_ok.mp h
  exact ⟨hlen, by simp [decodeWave, bytesAt_all, ← hlen]⟩

theorem bodyPidParams_roundtrip {m : PidParams} (h : bodyPidParams m = .ok body) :
    body.length = 28 ∧ decodePidParams body = m := by
  simp only [bodyPidParams, putAll_putF32_ok, putAll_nil_ok, exists_eq_left] at h
  subst h
  constructor
  · simp
  · simp [-List.append_nil, decodePidParams, f32At_here, f32At_skip]

theorem bodyTaskTimingResult_roundtrip {m : TaskTimingResult} (hc : 32 ≤ c.ttrSize)
    (h : bodyTaskTimingResult c m = .ok body) : body.length = c.ttrSize ∧
      decodeTaskTimingResult c body = { m with taskName := padTo 32 m.taskName } := by
  simp only [bodyTaskTimingResult, putAll_putChar_ok, putAll_putRaw_ok, putAll_nil_ok, exists_eq_left,
    and_assoc, exists_and_left] at h
  obtain ⟨hname, htiming, rfl⟩ := h
  have hpad := padTo_length hname
  constructor
  · simp [hpad, htiming, hc]
  · simp [-List.append_nil, decodeTaskTimingResult, bytesAt_here, bytesAt_skip, hpad, htiming]

/-- The derived fields are computed role by role (R152). -/
theorem deriveStatus_eq_derivedOf (c : Cfg) (m : StatusData) :
    deriveStatus c m.battery m.roll m.pitch m.yaw m.telem = derivedOf c m := by
  simp only [deriveStatus, derivedOf, List.zipWith_map_left]
  rfl

theorem bodyStatusData_roundtrip {m : StatusData} (h : bodyStatusData c m = .ok body) :
    body.length = 20 + 4 * c.statusTelem.length ∧
      decodeStatusData c body = { m with derived := some (derivedOf c m) } := by
  have hfields : fieldsStatusData c m = .ok body := sendBody_ok (m := .statusData m).mpr h
  simp only [fieldsStatusData, putAll_putU_ok, putAll_putF32_ok, putAll_putTelem_ok, putAll_nil_ok,
    exists_eq_left, and_assoc, exists_and_left] at hfields
  obtain ⟨hmain, hsub, hstate, hpad, htelem, rfl⟩ := hfields
  constructor
  · simp [← htelem]
    omega
  · simp [-List.append_nil, decodeStatusData, ← htelem, ← deriveStatus_eq_derivedOf, uintAt_here,
      uintAt_skip, f32At_here, f32At_skip, f32sAt_here, f32sAt_skip, hmain, hsub, hstate, hpad]

/-- Every encoder that does not raise returns exactly SIZE bytes (R184). -/
theorem length_of_encodeBody {m : Message} (hc : c.Valid) (h : encodeBody c m = .ok body) :
    body.length = m.type.size c := by
  cases m with
  | assertMessage m => exact (bodyAssertMessage_roundtrip h).1
  | debugMessage m => exact (bodyDebugMessage_roundtrip h).1
  | captureData m => exact (bodyCaptureData_roundtrip h).1
  | drivingCommand m => exact (bodyDrivingCommand_roundtrip h).1
  | captureCommand m => exact (bodyCaptureCommand_roundtrip h).1
  | statusData m => exact (bodyStatusData_roundtrip h).1
  | modes m => exact (bodyModes_roundtrip h).1
  | robotCommand m => exact (bodyRobotCommand_roundtrip h).1
  | wave m => exact (bodyWave_roundtrip h).1
  | pidParams m => exact (bodyPidParams_roundtrip h).1
  | request m =>
    obtain ⟨-, rfl⟩ := putU_ok_iff.mp h
    exact le_length ..
  | taskTimingResult m => exact (bodyTaskTimingResult_roundtrip hc.ttrLow h).1

/-- SIZE is at most `MAX_BODY` under every valid configuration (R91). -/
theorem size_le (hc : c.Valid) (ty : MsgType) : ty.size c ≤ 255 := by
  cases ty with
  | statusData =>
    have htelem := hc.telem
    show 20 + 4 * c.statusTelem.length ≤ 255
    omega
  | wave => exact hc.wave
  | taskTimingResult => exact hc.ttrHigh
  | _ => exact of_decide_eq_true rfl

/-- Decoding what an encoder returned gives its message, as R160 has it. -/
theorem decodeBody_of_encodeBody {m : Message} (hc : c.Valid) (h : encodeBody c m = .ok body)
    (hr : m.type ≠ .request) : decodeBody c body m.type = some (received c m) := by
  cases m with
  | assertMessage m => exact congrArg (some ∘ Message.assertMessage) (bodyAssertMessage_roundtrip h).2
  | debugMessage m => exact congrArg (some ∘ Message.debugMessage) (bodyDebugMessage_roundtrip h).2
  | captureData m => exact congrArg (some ∘ Message.captureData) (bodyCaptureData_roundtrip h).2
  | drivingCommand m =>
    exact congrArg (some ∘ Message.drivingCommand) (bodyDrivingCommand_roundtrip h).2
  | captureCommand m =>
    exact congrArg (some ∘ Message.captureCommand) (bodyCaptureCommand_roundtrip h).2
  | statusData m => exact congrArg (some ∘ Message.statusData) (bodyStatusData_roundtrip h).2
  | modes m => exact congrArg (some ∘ Message.modes) (bodyModes_roundtrip h).2
  | robotCommand m => exact congrArg (some ∘ Message.robotCommand) (bodyRobotCommand_roundtrip h).2
  | wave m => exact congrArg (some ∘ Message.wave) (bodyWave_roundtrip h).2
  | pidParams m => exact congrArg (some ∘ Message.pidParams) (bodyPidParams_roundtrip h).2
  | request m => exact absurd rfl hr
  | taskTimingResult m =>
    exact congrArg (some ∘ Message.taskTimingResult) (bodyTaskTimingResult_roundtrip hc.ttrLow h).2

/-! ## The decode multiplexer on a body of its type's size -/

theorem deliver_of_length {ty : MsgType} (hlen : body.length = ty.size c) (inst : U16)
    (decoder : List Byte → Message) (s : State) :
    deliver c ty inst body decoder s = dispatchMsg (c.idTable ty) inst (decoder body) s := by
  simp [deliver, ← hlen]

/-- `DEC` on a body of exactly SIZE bytes dispatches what the type's decoder reads in it (R140). -/
theorem dec_of_decodeBody (hc : c.Valid) {ty : MsgType} (hlen : body.length = ty.size c)
    {msg : Message} (h : decodeBody c body ty = some msg) (inst : U16) (s : State) :
    dec c (c.idTable ty) inst body s = dispatchMsg (c.idTable ty) inst msg s := by
  unfold dec
  rw [IdTable.typeOf_id hc.ids]
  cases ty with
  | request => cases h
  | _ => cases h; exact deliver_of_length hlen inst _ s

/-- `DEC` of an encoded body dispatches its message (R160). -/
theorem dec_of_encodeBody {m : Message} (hc : c.Valid) (h : encodeBody c m = .ok body)
    (hr : m.type ≠ .request) (inst : U16) (s : State) : dec c (c.idTable m.type) inst body s =
      dispatchMsg (c.idTable m.type) inst (received c m) s :=
  dec_of_decodeBody hc (length_of_encodeBody hc h) (decodeBody_of_encodeBody hc h hr) inst s
end

end Sys2Proof.Machine
end

section
/-! PROOFS. A frame through the parser (spec/30_encoding.md R70; spec/41_frame_parser.md R120 to R132):
the bytes received so far stand at the front of `buf`, and the tagged form of R35 says what comes next. -/

namespace Sys2Proof.Machine

open Sys2Proof.Claims

/-! ## The buffer's front -/

/-- A byte written behind the first `n` follows them. -/
theorem Memory.slice_write_end {m : Memory} (hm : m.wf = true) (n : Nat) (b : Byte) :
    (m.write n b).slice 0 (n + 1) = m.slice 0 n ++ [b] := by
  have hlow : ∀ i ∈ List.range n, (m.write n b).read (0 + i) = m.read (0 + i) := fun i hi => by
    have hlt : i < n := List.mem_range.mp hi
    rw [Memory.read_write hm, if_neg (by omega)]
  have hlast : (m.write n b).read (0 + n) = b := by
    rw [Memory.read_write hm, if_pos (Nat.zero_add n)]
  simp only [Memory.slice, List.range_succ, List.map_append, List.map_congr_left hlow,
    List.map_singleton, hlast]

/-- A byte of the buffer's front. -/
theorem Memory.read_of_slice {m : Memory} {n a : Nat} {x : Byte} (h : (m.slice 0 n)[a]? = some x) :
    m.read a = x := by
  obtain ⟨ha, hx⟩ := List.getElem?_eq_some_iff.mp h
  simpa [Memory.slice] using hx

/-- A slice within the buffer's front. -/
theorem Memory.slice_eq_bytesAt (m : Memory) {n a k : Nat} (h : a + k ≤ n) :
    m.slice a k = bytesAt (m.slice 0 n) a k := by
  refine List.ext_getElem ?_ fun i hi hi' => ?_
  · rw [Memory.slice_length, bytesAt_length _ _ _ (by rwa [Memory.slice_length])]
  · simp [Memory.slice, bytesAt]

/-! ## Bytes inside a frame -/

/-- `u` is the connected state `s` after the bytes `bs` of one frame: they are stored, and no counter
but `bytes_rcvd` has moved and nothing was emitted. -/
structure Holds (s : State) (bs : List Byte) (u : State) : Prop where
  connected : u.connected = true
  wf : u.buf.wf = true
  inv : u.ParserInv
  cursor : u.cursor.toNat = bs.length
  stored : u.buf.slice 0 bs.length = bs
  stats : u.stats = { s.stats with bytesRcvd := u.stats.bytesRcvd }
  ev : u.ev = s.ev
  tx : u.tx = s.tx

/-- RX.BYTE answers while `buf` has a byte at `cursor`. -/
theorem rxByteUnder_answers {c : Cfg} {s : State} (hcur : s.cursor.toNat < 262) (b : Byte) :
    ∃ t, rxByteUnder c b s = .next t := by
  obtain ht | ⟨bytes, n, init, hi, -⟩ := perform_answers c (decodeFsm s.state b) hcur
  · exact ht
  · have hfmt := fmt_decodeFsm s.state b
    rw [hi] at hfmt
    cases hfmt

/-- Every byte but one that is skipped or that ends a frame is stored at `cursor` (R121 to R128). -/
theorem Moved.stores {c : Cfg} {s t : State} {b : Byte} (h : Moved c s b t) (hs : s.ParserInv)
    (h0 : s.state = 0 → b = 0xFE) (h7 : s.state ≠ 7) :
    t.buf = s.buf.write s.cursor.toNat b ∧ t.cursor.toNat = s.cursor.toNat + 1 ∧
      t.stats = { s.stats with bytesRcvd := satInc c s.stats.bytesRcvd 1 } ∧ t.ev = s.ev ∧
      t.tx = s.tx := by
  obtain ⟨hmax, hidle, hheader, -⟩ := hs
  cases h with
  | wait hst hb =>
    rw [(hidle hst).1, hb]
    exact ⟨rfl, rfl, rfl, rfl, rfl⟩
  | noise hst hb => exact absurd (h0 hst) hb
  | type hst | instlo hst | insthi hst | len hst =>
    rw [hheader (by omega) (by omega), hst]
    exact ⟨rfl, rfl, rfl, rfl, rfl⟩
  | body hst hl | crclo hst hl =>
    have hnext : (s.cursor + 1).toNat = s.cursor.toNat + 1 := by bv_omega
    exact ⟨rfl, hnext, rfl, rfl, rfl⟩
  | crchi hst hl => exact absurd hst h7
  | badstate hst => omega

section
variable {s u : State} {bs : List Byte} {q : Tagged}

/-- One more byte of a frame, unless it is the last. -/
theorem Holds.byte (h : Holds s bs u) {b : Byte} (h0 : tagOf u = .waitForStart → b = 0xFE)
    (h7 : tagOf u ≠ .readCrc 1) :
    ∃ v, rxByte b u = .next v ∧ Holds s (bs ++ [b]) v ∧ tagOf v = tagNext (tagOf u) b := by
  obtain ⟨hmax, -, -, hbody, -, -, -, -, hcur⟩ := h.inv
  obtain ⟨v, hv⟩ := rxByteUnder_answers (c := cfg) (Nat.lt_succ_of_le hcur) b
  rw [← rxByte_eq] at hv
  have hmoved := (rxByte_moved h.connected).mp hv
  obtain ⟨hbuf, hcursor, hstats, hev, htx⟩ :=
    hmoved.stores h.inv (fun hst => h0 (tagOf_wait hst)) fun hst => h7 (tagOf_crchi hst)
  refine ⟨v, hv, ?_, hmoved.tagOf_eq hmax fun h5 => (hbody h5).2.2⟩
  exact {
    connected := hmoved.connected_eq.trans h.connected
    wf := hbuf ▸ Memory.wf_write h.wf (Nat.lt_succ_of_le hcur) b
    inv := hmoved.parserInv h.wf h.inv
    cursor := by rw [hcursor, h.cursor, List.length_append, List.length_singleton]
    stored := by
      rw [hbuf, h.cursor, List.length_append, List.length_singleton, Memory.slice_write_end h.wf,
        h.stored]
    stats := by rw [hstats, h.stats]
    ev := hev.trans h.ev
    tx := htx.trans h.tx }

/-- The bytes `bs` of one frame take `s` to a state with the tagged form `q`. -/
def Reaches (s : State) (bs : List Byte) (q : Tagged) : Prop :=
  ∃ u, rxChunk bs s = .next u ∧ Holds s bs u ∧ tagOf u = q

theorem reaches_nil (hs : s.Inv) (hc : s.connected = true) (h0 : s.state = 0) :
    Reaches s [] .waitForStart := by
  obtain ⟨hwf, hinv, -⟩ := hs
  refine ⟨s, rfl, ⟨hc, hwf, hinv, ?_, rfl, rfl, rfl, rfl⟩, tagOf_wait h0⟩
  obtain ⟨-, hidle, -⟩ := hinv
  exact (hidle h0).1

theorem Reaches.byte (h : Reaches s bs q) {b : Byte} (h0 : q = .waitForStart → b = 0xFE)
    (h7 : q ≠ .readCrc 1) : Reaches s (bs ++ [b]) (tagNext q b) := by
  obtain ⟨u, hu, hholds, rfl⟩ := h
  obtain ⟨v, hv, hholds, htag⟩ := hholds.byte h0 h7
  exact ⟨v, rxChunk_append.mpr ⟨u, hu, rxChunk_cons.mpr ⟨v, hv, rfl⟩⟩, hholds, htag⟩

/-- A body of the announced length, as the parser's tagged form counts it down (R127). -/
theorem Reaches.body {body : List Byte} (h : Reaches s bs (.readBody body.length))
    (hne : body ≠ []) : Reaches s (bs ++ body) (.readCrc 0) := by
  induction body generalizing bs with
  | nil => exact absurd rfl hne
  | cons b body ih =>
    have hnext := h.byte (b := b) nofun nofun
    cases body with
    | nil => exact hnext
    | cons b' body =>
      have hrest := ih (bs := bs ++ [b]) hnext nofun
      simpa using hrest

/-- The header (R121 to R126). -/
theorem Reaches.header (h : Reaches s [] .waitForStart) (t lo hi n : Byte) :
    Reaches s [0xFE, t, lo, hi, n] (if n = 0 then .readCrc 0 else .readBody n.toNat) :=
  ((((h.byte (fun _ => rfl) nofun).byte (b := t) nofun nofun).byte (b := lo) nofun nofun).byte
    (b := hi) nofun nofun).byte (b := n) nofun nofun

/-- Header and body (R70). -/
theorem Reaches.head (h : Reaches s [] .waitForStart) (t : Byte) (inst : U16) {body : List Byte}
    (hlen : body.length ≤ 255) : Reaches s (frameHead t inst body) (.readCrc 0) := by
  have hn : (BitVec.ofNat 8 body.length).toNat = body.length := by
    rw [BitVec.toNat_ofNat]
    omega
  have hhead := h.header t (BitVec.ofNat 8 inst.toNat) (BitVec.ofNat 8 (inst.toNat / 256))
    (BitVec.ofNat 8 body.length)
  cases body with
  | nil => exact hhead
  | cons b body =>
    have hne : BitVec.ofNat 8 (b :: body).length ≠ 0 := fun hz =>
      Nat.succ_ne_zero _ (hn.symm.trans (congrArg BitVec.toNat hz))
    rw [if_neg hne, hn] at hhead
    exact hhead.body nofun

/-! ## The byte that ends a frame -/

theorem state_eq_seven (h : tagOf u = .readCrc 1) : u.state = 7 := by
  unfold tagOf at h
  split at h
  case h_4 h7 => exact h7
  all_goals cases h

theorem frameHead_length (t : Byte) (inst : U16) (body : List Byte) :
    (frameHead t inst body).length = 5 + body.length := by
  simp [frameHead]
  omega

section
variable {m : Memory} {c : Cfg} {t : Byte} {inst : U16} {body : List Byte}

theorem slice_frameHead (h : m.slice 0 (7 + body.length) = buildFrame c t inst body) :
    m.slice 0 (5 + body.length) = frameHead t inst body := by
  rw [m.slice_eq_bytesAt (n := 7 + body.length) (by omega), h]
  exact bytesAt_here _ _ _ (frameHead_length t inst body)

theorem slice_body (h : m.slice 0 (7 + body.length) = buildFrame c t inst body) :
    m.slice 5 body.length = body := by
  rw [m.slice_eq_bytesAt le_rfl, slice_frameHead h, frameHead, bytesAt_skip _ _ _ _ (by simp)]
  simp [bytesAt_all]

theorem readLe_inst (h : m.slice 0 (7 + body.length) = buildFrame c t inst body) :
    m.readLe 2 2 = inst.toNat := by
  rw [Memory.readLe, m.slice_eq_bytesAt (n := 7 + body.length) (by omega), h]
  exact unle_le_bitvec (n := 2) inst (by decide)

theorem readLe_crc (h : m.slice 0 (7 + body.length) = buildFrame c t inst body) :
    m.readLe (5 + body.length) 2 = (frameCrc c (frameHead t inst body)).toNat := by
  have hlen := frameHead_length t inst body
  rw [Memory.readLe, m.slice_eq_bytesAt (n := 7 + body.length) (by omega), h, buildFrame,
    bytesAt_skip _ _ _ _ hlen.le, hlen, Nat.sub_self, bytesAt_all]
  exact unle_le_bitvec (n := 2) _ (by decide)

/-- The CRC of a built frame agrees with the one it carries (R72, R191). -/
theorem crcAgrees_of_buildFrame {len : Byte}
    (h : m.slice 0 (7 + body.length) = buildFrame c t inst body) (hlen : len.toNat = body.length) :
    CrcAgrees c m len := by
  unfold CrcAgrees
  rw [hlen, slice_frameHead h, readLe_crc h, ← frameHead_length t inst body]
  simp [frameCrc]

/-- VERIFY on a buffer that holds a built frame hands its type id, `inst` and body to the codec
(R131). -/
theorem verify_of_buildFrame (h : u.buf.slice 0 (7 + body.length) = buildFrame c t inst body)
    (hlen : u.len.toNat = body.length) :
    verify c u = dec c t inst body (u.bumpMsgsRcvd c) := by
  have htype : u.buf.read 1 = t := Memory.read_of_slice (n := 7 + body.length) (by rw [h]; rfl)
  rw [verify_of_crcAgrees (crcAgrees_of_buildFrame h hlen), htype, hlen, slice_body h, readLe_inst h]
  simp
end

/-- A frame ends in two CRC bytes (R70). -/
theorem exists_crc_bytes (c : Cfg) (t : Byte) (inst : U16) (body : List Byte) :
    ∃ lo hi, buildFrame c t inst body = frameHead t inst body ++ [lo] ++ [hi] := by
  simp [buildFrame, le]

/-- A built frame through an idle parser (R120 to R132): its body goes to the codec in a state with
one more message received, nothing emitted, and no other counter moved but `bytes_rcvd`; then the
parser is idle. -/
theorem rxChunk_buildFrame (hs : s.Inv) (hc : s.connected = true) (h0 : s.state = 0) (t : Byte)
    (inst : U16) {body : List Byte} (hlen : body.length ≤ 255) : ∃ v : State,
      rxChunk (buildFrame cfg t inst body) s = .next (dec cfg t inst body v).idleParser ∧
      v.stats = { s.stats with bytesRcvd := v.stats.bytesRcvd,
                               msgsRcvd := satInc cfg s.stats.msgsRcvd 1 } ∧
      v.ev = s.ev ∧ v.tx = s.tx := by
  obtain ⟨lo, hi, hframe⟩ := exists_crc_bytes cfg t inst body
  obtain ⟨u, hu, hholds, htag⟩ :=
    ((reaches_nil hs hc h0).head t inst hlen).byte (b := lo) nofun nofun
  have h7 : u.state = 7 := state_eq_seven htag
  have hcursor : u.cursor.toNat = 6 + body.length := by
    rw [hholds.cursor, List.length_append, frameHead_length, List.length_singleton]
    omega
  have hulen : u.len.toNat = body.length := by
    obtain ⟨-, -, -, -, -, hcrchi, -⟩ := hholds.inv
    have := hcrchi h7
    omega
  have hbuf : (u.atVerify cfg hi).buf.slice 0 (7 + body.length) = buildFrame cfg t inst body := by
    have hstored := hholds.stored
    rw [← hholds.cursor, hcursor] at hstored
    rw [State.atVerify_buf, hcursor, hframe, ← hstored, ← Memory.slice_write_end hholds.wf]
    congr 1
    omega
  have hbyte := (rxByte_moved hholds.connected (b := hi)).mpr (.crchi h7 (by omega))
  rw [verify_of_buildFrame hbuf hulen] at hbyte
  refine ⟨(u.atVerify cfg hi).bumpMsgsRcvd cfg, ?_, ?_, hholds.ev, hholds.tx⟩
  · rw [hframe]
    exact rxChunk_append.mpr ⟨u, hu, rxChunk_cons.mpr ⟨_, hbyte, rfl⟩⟩
  · show ({ u.stats with bytesRcvd := _, msgsRcvd := satInc cfg u.stats.msgsRcvd 1 } : Stats) = _
    rw [hholds.stats]
    rfl
end

end Sys2Proof.Machine
end

section
/-! PROOFS. Chunks of the stream `rx` (spec/20_memory.md R62; spec/30_encoding.md R95). -/

namespace Sys2Proof.Machine

open Sys2Proof.Claims

/-! ## Any bytes -/

theorem rxChunk_singleton (b : Byte) (s : State) : rxChunk [b] s = rxByte b s := by
  unfold rxChunk
  cases rxByte b s <;> rfl

/-- RX.CHUNK is RX.BYTE of each of its bytes. -/
theorem rxChunk_iff_fedByBytes {bs : List Byte} {s t : State} :
    rxChunk bs s = .next t ↔ FedByBytes bs s t := by
  induction bs generalizing s with
  | nil => simp [rxChunk_nil, FedByBytes]
  | cons b bs ih => simp [rxChunk_cons, FedByBytes, ih]

/-- RX.CHUNKs one after the other are the RX.CHUNK of all their bytes. -/
theorem fedInChunks_iff {chunks : List (List Byte)} {s t : State} :
    FedInChunks chunks s t ↔ rxChunk chunks.flatten s = .next t := by
  induction chunks generalizing s with
  | nil => simp [rxChunk_nil, FedInChunks]
  | cons bs chunks ih => simp [rxChunk_append, FedInChunks, ih]

/-! ## An encoded frame -/

/-- A u16 on the wire (R53). -/
theorem le16_eq_le (x : BitVec 16) : le16 x = le x.toNat 2 := by
  have hlo : x.extractLsb' 0 8 = BitVec.ofNat 8 x.toNat := by
    apply BitVec.eq_of_toNat_eq
    simp
  have hhi : x.extractLsb' 8 8 = BitVec.ofNat 8 (x.toNat / 256) := by
    apply BitVec.eq_of_toNat_eq
    simp [Nat.shiftRight_eq_div_pow]
  rw [le16, hlo, hhi]
  rfl

/-- A wire frame is the one the frame builder makes (R70, R191). -/
theorem wire_eq_buildFrame (c : Cfg) (t : Byte) (inst : U16) (body : List Byte) :
    wire c t inst body = buildFrame c t inst body := by
  have hhead : [0xFE, t] ++ le16 inst ++ [BitVec.ofNat 8 body.length] ++ body =
      frameHead t inst body := by
    rw [le16_eq_le]
    rfl
  unfold wire buildFrame frameCrc
  rw [hhead]
  dsimp only
  rw [le16_eq_le, frameHead_length]

theorem ne_request_of_decodable {ty : MsgType} (h : Decodable ty.id) : ty ≠ .request := by
  rintro rfl
  simp [Decodable, MsgType.id] at h

/-- The frame of an encoded message through an idle parser: exactly one dispatch, of that message
(R131, R160). -/
theorem rxChunk_wire {m : Message} {body : List Byte} {s : State} (hs : s.Inv)
    (hc : s.connected = true) (h0 : s.state = 0) (he : encodeBody cfg m = .ok body)
    (hr : m.type ≠ .request) (inst : U16) : ∃ t, rxChunk (wire cfg m.type.id inst body) s = .next t ∧
      t.ev = s.ev ++ [.dispatch m.type.id inst (received cfg m)] ∧
      t.result = some (.dispatched m.type.id inst (received cfg m)) := by
  have hlen : body.length ≤ 255 := length_of_encodeBody cfg_valid he ▸ size_le cfg_valid m.type
  obtain ⟨v, hv, -, hev, -⟩ := rxChunk_buildFrame hs hc h0 m.type.id inst hlen
  have hdec : dec cfg m.type.id inst body v = dispatchMsg m.type.id inst (received cfg m) v :=
    dec_of_encodeBody cfg_valid he hr inst v
  rw [hdec, ← wire_eq_buildFrame] at hv
  exact ⟨_, hv, congrArg (· ++ _) hev, rfl⟩

/-- Settles O26: chunks are appended by `rxChunk_append`, so every split of a frame ends where the
frame as one chunk does. -/
theorem chunkBoundariesAreNotObservable : Obligations.ChunkBoundariesAreNotObservable := by
  refine ⟨rxChunk_nil, rxChunk_singleton, fun _ _ _ => rxChunk_iff_fedByBytes,
    fun _ _ _ => fedInChunks_iff, fun m inst body s hs hc h0 he hd => ?_⟩
  obtain ⟨t, ht, hev, hresult⟩ := rxChunk_wire hs hc h0 he (ne_request_of_decodable hd) inst
  refine ⟨t, hev, hresult, fun chunks hchunks u => ?_⟩
  rw [fedInChunks_iff, hchunks, ht, Host.Outcome.next.injEq]
  exact eq_comm

end Sys2Proof.Machine
end

section
/-! PROOFS. The ids without a decoder (spec/30_encoding.md R75, R76; spec/42_codec_decode.md R143, R158),
and the decoder on what the encoder writes (R92, R93). -/

namespace Sys2Proof.Machine

open Sys2Proof.Claims

/-! ## Ids without a decoder (R75, R143, R158) -/

section
variable {tab : IdTable} {t : Byte}

/-- DEC.UNKNOWN is the multiplexer's entry for every id but those of the types with a decoder. -/
theorem decodeFrameTypeUnder_eq_decUnknown_iff {inst : U16} {body : List Byte} :
    decodeFrameTypeUnder tab t inst body = .decUnknown t inst ↔
      (tab.typeOf t).any MsgType.hasDec = false := by
  unfold decodeFrameTypeUnder
  cases tab.typeOf t with
  | none => simp
  | some ty => cases ty <;> simp [MsgType.hasDec]

/-- The ids listed in R75 as having a decoder are the canonical ids of the types with one. -/
theorem decodable_iff : Decodable t ↔ (MsgType.ofId t).any MsgType.hasDec = true := by
  constructor
  · intro h
    simp only [Decodable, List.mem_cons, List.not_mem_nil, or_false] at h
    have ht : t = BitVec.ofNat 8 t.toNat := by simp
    rcases h with h | h | h | h | h | h | h | h | h | h | h <;> rw [ht, h] <;> rfl
  · cases hty : MsgType.ofId t with
    | none => exact nofun
    | some ty =>
      rw [← MsgType.id_of_ofId hty]
      cases ty with
      | request => exact nofun
      | _ => simp [Decodable, MsgType.id]
end

/-- The ids without a decoder are those that select DEC.UNKNOWN (R143, R158). -/
theorem decodeFrameType_eq_decUnknown_iff {t : Byte} {inst : U16} {body : List Byte} :
    decodeFrameType t inst body = .decUnknown t inst ↔ ¬ Decodable t := by
  rw [decodable_iff, Bool.not_eq_true]
  exact decodeFrameTypeUnder_eq_decUnknown_iff

/-- DEC.UNKNOWN while connected: the frame is counted as dropped and reported (R143). -/
theorem exec_decUnknown {s : State} (hc : s.connected = true) (t : Byte) (inst : U16) :
    exec (.decUnknown t inst) s = .next (failed s (.unknownType t inst)) := by
  show codecPort (decUnknown cfg t inst) s = _
  rw [codecPort_eq, if_pos hc]
  rfl

/-- Settles O37, from the ids that select DEC.UNKNOWN and its effect. -/
theorem unknownTypeIsReported : Obligations.UnknownTypeIsReported := fun t inst _ _ hc =>
  ⟨exec_decUnknown hc t inst, decodeFrameType_eq_decUnknown_iff.mpr,
    fun h hu => decodeFrameType_eq_decUnknown_iff.mp hu h⟩

/-! ## Decoding an encoding (R92, R93) -/

/-- Every state code above those of the eight arms selects RX.BADSTATE (R129). -/
theorem decodeFsm_of_le {st : Nat} (h : 8 ≤ st) (b : Byte) : decodeFsm st b = .rxBadstate st b := by
  obtain ⟨k, rfl⟩ := Nat.exists_eq_add_of_le' h
  rfl

section
variable {c : Cfg} (hid : Function.Injective c.idTable)
include hid

/-- The frame of a type's decoder selects that decoder (R70, R92). -/
theorem decodeUnder_wordFrame {ty : MsgType} (hr : ty ≠ .request) (inst : U16) {body : List Byte}
    (hbody : bodyFits body = true) :
    decodeUnder c.idTable (wordFrame (c.idTable ty) inst body) =
      .ok (decodeFrameType ty.id inst body) :=
  (decodeFrame_frameHead _ _ _ _ (of_decide_eq_true hbody)).trans
    (congrArg Except.ok (decodeFrameTypeUnder_id hid hr inst body))

/-- A message at the encode multiplexer selects its variant's encoder (R170). -/
theorem decodeUnder_wordMsg (m : Message) :
    decodeUnder c.idTable (wordMsg c.idTable m) = .ok (encodeInstr m) := by
  show decodeMsg c.idTable (c.idTable m.type) m = _
  simp [decodeMsg, IdTable.typeOf_id hid]

/-- In every configuration without shared ids the decoder gives back a well-formed instruction. -/
theorem decodeUnder_encodeUnder {i : Instr} (h : i.wellFormedUnder c = true) :
    decodeUnder c.idTable (encodeUnder c.idTable i) = .ok i := by
  cases i with
  | rxNoise b => exact congrArg Except.ok (if_neg (bne_iff_ne.mp h))
  | rxBadstate st b =>
    obtain ⟨h8, -⟩ : 8 ≤ st ∧ st < 2 ^ c.stateW := by simpa [Instr.wellFormedUnder] using h
    exact congrArg Except.ok (decodeFsm_of_le h8 b)
  | decAssertMessage inst body => exact decodeUnder_wordFrame hid (ty := .assertMessage) nofun inst h
  | decDebugMessage inst body => exact decodeUnder_wordFrame hid (ty := .debugMessage) nofun inst h
  | decCaptureData inst body => exact decodeUnder_wordFrame hid (ty := .captureData) nofun inst h
  | decDrivingCommand inst body => exact decodeUnder_wordFrame hid (ty := .drivingCommand) nofun inst h
  | decCaptureCommand inst body => exact decodeUnder_wordFrame hid (ty := .captureCommand) nofun inst h
  | decStatusData inst body => exact decodeUnder_wordFrame hid (ty := .statusData) nofun inst h
  | decModes inst body => exact decodeUnder_wordFrame hid (ty := .modes) nofun inst h
  | decRobotCommand inst body => exact decodeUnder_wordFrame hid (ty := .robotCommand) nofun inst h
  | decWave inst body => exact decodeUnder_wordFrame hid (ty := .wave) nofun inst h
  | decPidParams inst body => exact decodeUnder_wordFrame hid (ty := .pidParams) nofun inst h
  | decTaskTimingResult inst body =>
    exact decodeUnder_wordFrame hid (ty := .taskTimingResult) nofun inst h
  | decUnknown t inst =>
    have hnone : (c.idTable.typeOf t).any MsgType.hasDec = false := by
      simpa [Instr.wellFormedUnder] using h
    exact (decodeFrame_frameHead _ t inst [] (Nat.zero_le _)).trans
      (congrArg Except.ok (decodeFrameTypeUnder_eq_decUnknown_iff.mpr hnone))
  | encAssertMessage m => exact decodeUnder_wordMsg hid (.assertMessage m)
  | encDebugMessage m => exact decodeUnder_wordMsg hid (.debugMessage m)
  | encCaptureData m => exact decodeUnder_wordMsg hid (.captureData m)
  | encDrivingCommand m => exact decodeUnder_wordMsg hid (.drivingCommand m)
  | encCaptureCommand m => exact decodeUnder_wordMsg hid (.captureCommand m)
  | encStatusData m => exact decodeUnder_wordMsg hid (.statusData m)
  | encModes m => exact decodeUnder_wordMsg hid (.modes m)
  | encRobotCommand m => exact decodeUnder_wordMsg hid (.robotCommand m)
  | encWave m => exact decodeUnder_wordMsg hid (.wave m)
  | encPidParams m => exact decodeUnder_wordMsg hid (.pidParams m)
  | encRequest m => exact decodeUnder_wordMsg hid (.request m)
  | encTaskTimingResult m => exact decodeUnder_wordMsg hid (.taskTimingResult m)
  | rxWait | rxType | rxInstlo | rxInsthi | rxLen | rxBody | rxCrclo | rxCrchi => rfl
  | reset | connect | disconnect | txSend | statRead | crc16 => rfl
end

/-- Settles O1: the canonical id table shares no ids. -/
theorem decodeOfEncodeIsIdentity : Obligations.DecodeOfEncodeIsIdentity :=
  fun _ h => decodeUnder_encodeUnder cfg_valid.ids h

/-- Settles O3: each word is closed, so the decoder runs on it. -/
theorem specWordsDecode : Obligations.SpecWordsDecode := by
  unfold Obligations.SpecWordsDecode
  decide

end Sys2Proof.Machine
end

section
/-! PROOFS. The decoder and the opcode table (spec/30_encoding.md R92, R93): which row a key selects, and
that the decoder gives the instruction of that row's mnemonic. -/

namespace Sys2Proof.Machine

open Sys2Proof.Claims Sys2Proof.Laws.TableKey

/-! ## Keys -/

/-- What a row that fixes every bit of a key compares with its pattern. -/
theorem key_full (k : BitVec 16) : k &&& 0xFFFF#16 = k :=
  BitVec.and_allOnes

/-- A key of format `FSM` or `FRAME` is its two bytes. -/
theorem key_eq_iff {x y : Byte} {k : BitVec 16} :
    x ++ y = k ↔ x = k.extractLsb' 8 8 ∧ y = k.extractLsb' 0 8 := by
  constructor
  · rintro rfl
    exact ⟨BitVec.extractLsb'_append_eq_left.symm, BitVec.extractLsb'_append_eq_right.symm⟩
  · rintro ⟨rfl, rfl⟩
    exact BitVec.extractLsb'_append_extractLsb'

/-! ## The row a key selects -/

/-- The rows of the other formats cover no `FSM` key. -/
theorem selectRow_fsm (k : BitVec 16) :
    selectRow .fsm k = (rowsFsm.filter (·.covers .fsm k)).foldl betterRow none := by
  simp [selectRow, opcodeTable, rowsFrame, rowsMsg, rowsPort, Row.covers]

/-- The rows of the other formats cover no `FRAME` key. -/
theorem selectRow_frame (k : BitVec 16) :
    selectRow .frame k = (rowsFrame.filter (·.covers .frame k)).foldl betterRow none := by
  simp [selectRow, opcodeTable, rowsFsm, rowsMsg, rowsPort, Row.covers]

/-- An `FSM` key selects the row of the arm that its state code and byte run (R92): RX.WAIT before
RX.NOISE at the marker, RX.BADSTATE where no row fixes the state code. -/
theorem selectRow_decodeFsm (x b : Byte) :
    (selectRow .fsm (x ++ b)).map (·.mnemonic) = some (decodeFsm x.toNat b).mnemonic := by
  by_cases h8 : 8 ≤ x.toNat
  · have hne : ∀ k < 8, x ≠ BitVec.ofNat 8 k := by
      rintro k hk rfl
      simp only [BitVec.toNat_ofNat] at h8
      omega
    simp [selectRow_fsm, rowsFsm, Row.covers, key_high, key_full, key_eq_iff, betterRow,
      decodeFsm_of_le h8, Instr.mnemonic, hne]
  · obtain ⟨st, rfl⟩ : ∃ st : Fin 8, BitVec.ofNat 8 st = x := ⟨⟨x.toNat, by omega⟩, by simp⟩
    fin_cases st
    · by_cases hb : b = 0xFE#8
      · subst hb
        rfl
      · simp [selectRow_fsm, rowsFsm, Row.covers, key_high, key_full, key_eq_iff, betterRow, decodeFsm,
          Instr.mnemonic, hb]
    all_goals
      simp [selectRow_fsm, rowsFsm, Row.covers, key_high, key_full, key_eq_iff, betterRow, decodeFsm,
        Instr.mnemonic]

/-- The key of a frame whose id has no decoder selects DEC.UNKNOWN, the one row that covers it (R92,
R143). -/
theorem selectRow_of_not_decodable {t : Byte} (h : ¬ Decodable t) :
    (selectRow .frame (0xFE#8 ++ t)).map (·.mnemonic) = some "DEC.UNKNOWN" := by
  have hne : ∀ u : Byte, Decodable u → t ≠ u := fun _ hu e => h (e ▸ hu)
  unfold Decodable at hne
  simp [selectRow_frame, rowsFrame, Row.covers, key_high, key_full, key_eq_iff, betterRow, hne]

/-- The key of a frame selects the row of its id's decoder (R92). -/
theorem selectRow_decodeFrameType (t : Byte) (inst : U16) (body : List Byte) :
    (selectRow .frame (0xFE#8 ++ t)).map (·.mnemonic) =
      some (decodeFrameType t inst body).mnemonic := by
  by_cases hd : Decodable t
  · have hty := decodable_iff.mp hd
    cases ht : MsgType.ofId t with
    | none => simp [ht] at hty
    | some ty =>
      rw [← MsgType.id_of_ofId ht]
      cases ty <;> rfl
  · rw [decodeFrameType_eq_decUnknown_iff.mpr hd]
    exact selectRow_of_not_decodable hd

/-- The key of a message record selects the row of its variant's encoder (R92, R170). -/
theorem selectRow_encodeInstr (m : Message) :
    (selectRow .msg (BitVec.setWidth 16 m.type.id)).map (·.mnemonic) =
      some (encodeInstr m).mnemonic := by
  cases m <;> (dsimp only [Message.type]; rfl)

/-- A command code selects the row of its command (R93). -/
theorem selectRow_of_decodePort {code : BitVec 3} {a : Args} {i : Instr}
    (h : decodePort code a = .ok i) :
    (selectRow .port (BitVec.setWidth 16 code)).map (·.mnemonic) = some i.mnemonic := by
  have hcode : code = BitVec.ofNat 3 code.toNat := by simp
  unfold decodePort at h
  split at h
  case h_7 => cases h
  all_goals
    next hc =>
      cases h
      rw [hcode, hc]
      rfl

/-! ## What the decoder reads at each port -/

/-- A frame the decoder reads begins with the marker and its type id, and selects that id's decoder. -/
theorem decodeFrame_ok {tab : IdTable} {f : List Byte} {i : Instr} (h : decodeFrame tab f = .ok i) :
    ∃ t rest inst body, f = Config.startByte :: t :: rest ∧ i = decodeFrameTypeUnder tab t inst body := by
  unfold decodeFrame at h
  repeat' split at h
  all_goals cases h
  next start t lo hi n body hstart _ =>
    exact ⟨t, lo :: hi :: n :: body, _, body, by rw [not_not.mp hstart], rfl⟩

/-- A message record the decoder reads comes under its type's id, and selects its variant's encoder. -/
theorem decodeMsg_ok {tab : IdTable} {t : Byte} {m : Message} {i : Instr}
    (h : decodeMsg tab t m = .ok i) : t = tab m.type ∧ i = encodeInstr m := by
  unfold decodeMsg at h
  repeat' split at h
  all_goals cases h
  next ty hty hm => exact ⟨hm ▸ (IdTable.id_of_typeOf hty).symm, rfl⟩

/-- Settles O2, port by port. -/
theorem decoderFollowsOpcodeTable : Obligations.DecoderFollowsOpcodeTable := by
  intro ⟨st, op⟩ i hst h
  cases op with
  | rxByte b =>
    cases h
    have hsel := selectRow_decodeFsm (BitVec.ofNat 8 st) b
    rwa [BitVec.toNat_ofNat, Nat.mod_eq_of_lt hst] at hsel
  | frame f =>
    obtain ⟨t, rest, inst, body, rfl, rfl⟩ := decodeFrame_ok h
    exact selectRow_decodeFrameType t inst body
  | encode t m =>
    obtain ⟨rfl, rfl⟩ := decodeMsg_ok h
    exact selectRow_encodeInstr m
  | command code a => exact selectRow_of_decodePort h

end Sys2Proof.Machine
end

section
/-! PROOFS. Encoded bodies and TX.SEND (spec/30_encoding.md R91; spec/43_codec_encode.md R184, R190,
R191). -/

namespace Sys2Proof.Machine

open Sys2Proof.Claims

/-- Settles O44, encoder by encoder. -/
theorem encodedBodyHasExactlySize : Obligations.EncodedBodyHasExactlySize :=
  fun _ m _ hc h => ⟨length_of_encodeBody hc h, size_le hc m.type⟩

theorem buildFrame_length (c : Cfg) (t : Byte) (inst : U16) (body : List Byte) :
    (buildFrame c t inst body).length = 7 + body.length := by
  rw [buildFrame, List.length_append, frameHead_length, le_length]
  omega

/-- TX.SEND of a message that fits hands the built frame to the transport (R190). -/
theorem execTxSendUnder_of_encodeBody {c : Cfg} {m : Message} {body : List Byte} {s : State}
    (hc : s.connected = true) (he : encodeBody c m = .ok body) (inst : U16) :
    execTxSendUnder c m inst.toNat s =
      .next (sendFrame c (buildFrame c (c.idTable m.type) inst body) s) := by
  have hfits : instFits inst.toNat = true := by
    have hlt := inst.isLt
    simp only [instFits, Bool.and_eq_true, decide_eq_true_eq]
    omega
  simp [execTxSendUnder, hc, sendBody_ok.mpr he, hfits]

/-- Settles O47: the frame handed to the transport is R70's, and as long as its body and seven bytes. -/
theorem txSendEmitsOneFrame : Obligations.TxSendEmitsOneFrame := by
  intro m inst body s hc he
  have hsend := execTxSendUnder_of_encodeBody hc he inst
  rw [exec_eq_perform, wire_eq_buildFrame, ← buildFrame_length cfg m.type.id inst body]
  exact hsend

end Sys2Proof.Machine
end

section
/-! PROOFS. The CRC-16 generator (spec/00_scope.md R8; spec/40_crc.md R110 to R112, R115 to R118): what it
returns of the bytes below the length, how the register chains, its table form, and what one flipped bit
does to it. -/

namespace Sys2Proof.Machine

open Sys2Proof.Claims

section
variable (c : Cfg) (bytes : List Byte) (n k : Nat) (i r : BitVec 16) (b : Byte)

/-! ## The covered bytes (R110, R111, R116) -/

/-- The obligations' own text of one byte's entry is the machine's (R111). -/
theorem byteIn_eq_crcByte : byteIn c = crcByte c := rfl

/-- The obligations' own text of the returned value is the machine's (R111). -/
theorem returned_eq_crcFinal : returned c = crcFinal c := rfl

theorem crc16_length : crc16 c bytes bytes.length i = crcFinal c (crcReg c i bytes) := by
  rw [crc16, List.take_length]

theorem crc16_take : crc16 c (bytes.take n) n i = crc16 c bytes n i := by
  rw [crc16, List.take_take, Nat.min_self, crc16]

theorem crc16_append_left (more : List Byte) :
    crc16 c (bytes ++ more) bytes.length i = crc16 c bytes bytes.length i := by
  rw [← crc16_take, List.take_left]

theorem crcByte_zero_zero : crcByte c 0 0 = 0 := by
  have hrev : (0#8).reverse = 0#8 := BitVec.reverse_eq_zero_iff.mpr rfl
  simp [crcByte, hrev]

/-- Zeros leave a zero register at zero, whatever the parameters (R116 (c)). -/
theorem crcReg_replicate_zero : crcReg c 0 (List.replicate n 0) = 0 := by
  induction n with
  | zero => rfl
  | succ n ih => rw [List.replicate_succ, crcReg_cons, crcByte_zero_zero, ih]

/-! ## Chaining (R115) -/

/-- The register of the bytes below `n` is continued from that of the bytes below `k`. -/
theorem crcReg_take_of_le (h : k ≤ n) :
    crcReg c i (bytes.take n) = crcReg c (crcReg c i (bytes.take k)) ((bytes.drop k).take (n - k)) := by
  rw [← crcReg_append, ← List.take_add, Nat.add_sub_cancel' h]

/-! ## The table form (R112) -/

variable (poly : BitVec 16)

theorem crcShift8_eq_iterate : crcShift8 poly r = (crcBit poly)^[8] r := rfl

/-- While only zeros reach the top bit, the polynomial does not enter the register. -/
theorem crcBit_iterate_of_high_zero {poly r : BitVec 16} {n : Nat} (hn : n ≤ 8)
    (h : ∀ j, 8 ≤ j → r.getLsbD j = false) : (crcBit poly)^[n] r = r <<< n := by
  induction n with
  | zero => simp
  | succ n ih =>
    have htop : (r <<< n).getLsbD 15 = false := by
      rw [BitVec.getLsbD_shiftLeft, h (15 - n) (by omega), Bool.and_false]
    rw [Function.iterate_succ_apply', ih (by omega), crcBit, htop, BitVec.shiftLeft_add]
    rfl

/-- The register with its low byte cleared. -/
def highByte (r : BitVec 16) : BitVec 16 := (r.extractLsb' 8 8).setWidth 16 <<< 8

theorem highByte_shiftLeft : highByte r <<< 8 = 0#16 := by
  rw [highByte, ← BitVec.shiftLeft_add, BitVec.shiftLeft_eq_zero (by decide)]

/-- Without its high byte the register has nothing from bit 8 on. -/
theorem getLsbD_xor_highByte {j : Nat} (hj : 8 ≤ j) : (r ^^^ highByte r).getLsbD j = false := by
  by_cases h16 : j < 16
  · simp [highByte, hj.not_gt, h16, show j - 8 < 8 by omega, show 8 + (j - 8) = j by omega]
  · exact BitVec.getLsbD_of_ge _ j (by omega)

/-- Eight shifts move the low byte up, and only the high byte meets the polynomial. -/
theorem crcShift8_eq_shiftLeft_xor : crcShift8 poly r = (r <<< 8) ^^^ crcShift8 poly (highByte r) := by
  have hlow : crcShift8 poly (r ^^^ highByte r) = r <<< 8 := by
    rw [crcShift8_eq_iterate,
      crcBit_iterate_of_high_zero le_rfl fun _ => getLsbD_xor_highByte r,
      BitVec.shiftLeft_xor_distrib, highByte_shiftLeft, BitVec.xor_zero]
  rw [← hlow, ← crcShift8_xor, BitVec.xor_assoc, BitVec.xor_self, BitVec.xor_zero]

/-- One step of the table form: the low byte moves up, the high byte and the arriving one select the
table's entry (R112). -/
theorem crcByte_table_step (h : c.crcReflect = false) :
    crcByte c r b = (r <<< 8) ^^^ crcByte c 0 (r.extractLsb' 8 8 ^^^ b) := by
  have hentry : crcByte c 0 (r.extractLsb' 8 8 ^^^ b) =
      crcShift8 c.crcPoly (highByte r) ^^^ crcByte c 0 b := by
    simp [crcByte, highByte, h, BitVec.setWidth_xor, BitVec.shiftLeft_xor_distrib, crcShift8_xor]
  rw [crcByte_split, crcShift8_eq_shiftLeft_xor, hentry, BitVec.xor_assoc]

end

/-! ## One flipped bit (R117) -/

section
variable {c : Cfg}

theorem crcShift8_injective {poly : BitVec 16} (hp : poly.getLsbD 0 = true) :
    Function.Injective (crcShift8 poly) := fun a b h => by
  have hxor : crcShift8 poly (a ^^^ b) = 0 := by rw [crcShift8_xor, h]; exact BitVec.xor_self
  exact BitVec.xor_eq_zero_iff.mp (crcShift8_eq_zero hp hxor)

theorem bitVec_reverse_injective (w : Nat) : Function.Injective (BitVec.reverse (w := w)) :=
  Function.LeftInverse.injective fun _ => BitVec.reverse_reverse_eq

/-- A byte's place at the top of the register holds all of it. -/
theorem byteAtTop_injective :
    Function.Injective fun b : Byte => BitVec.setWidth 16 b <<< 8 := fun a b h => by
  ext j hj
  simpa [hj, show 8 + j < 16 by omega, show j < 16 by omega] using congrArg (BitVec.getLsbD · (8 + j)) h

theorem crcByte_injective_register (hp : c.crcPoly.getLsbD 0 = true) (b : Byte) :
    Function.Injective (crcByte c · b) := fun _ _ h =>
  (BitVec.xor_left_inj _).mp (crcShift8_injective hp h)

theorem crcByte_injective_byte (hp : c.crcPoly.getLsbD 0 = true) (r : BitVec 16) :
    Function.Injective (crcByte c r) := fun a b h => by
  have htop := byteAtTop_injective ((BitVec.xor_right_inj _).mp (crcShift8_injective hp h))
  cases hr : c.crcReflect with
  | false => simpa [hr] using htop
  | true => exact bitVec_reverse_injective 8 (by simpa [hr] using htop)

/-- Whatever bytes follow, two registers that differ stay different. -/
theorem crcReg_injective (hp : c.crcPoly.getLsbD 0 = true) (bs : List Byte) :
    Function.Injective (crcReg c · bs) := by
  induction bs with
  | nil => exact fun _ _ h => h
  | cons b bs ih => exact fun _ _ h => crcByte_injective_register hp b (ih h)

/-- The final reflection and XOR lose nothing. -/
theorem crcFinal_injective (c : Cfg) : Function.Injective (crcFinal c) := fun a b h => by
  have hrev := (BitVec.xor_left_inj _).mp h
  cases hr : c.crcReflect with
  | false => simpa [hr] using hrev
  | true => exact bitVec_reverse_injective 16 (by simpa [hr] using hrev)

/-- Replacing one byte by another changes the CRC, wherever it stands. -/
theorem crcReg_ne_of_byte_ne (hp : c.crcPoly.getLsbD 0 = true) (i : BitVec 16) (pre post : List Byte)
    {a b : Byte} (hab : a ≠ b) :
    crcReg c i (pre ++ a :: post) ≠ crcReg c i (pre ++ b :: post) := by
  rw [crcReg_append, crcReg_append, crcReg_cons, crcReg_cons]
  exact fun h => hab (crcByte_injective_byte hp _ (crcReg_injective hp post h))

/-- Flipping a bit of a byte changes it. -/
theorem ne_xor_twoPow (a : Byte) {k : Nat} (hk : k < 8) : a ≠ a ^^^ BitVec.twoPow 8 k := fun h => by
  have hbit := congrArg (BitVec.getLsbD · k) h
  simp [hk] at hbit

/-- Byte sequences one bit apart agree before and after one byte, and differ there. -/
theorem oneBitApart_split {xs ys : List Byte} (h : OneBitApart xs ys) :
    ∃ pre post a b, a ≠ b ∧ xs = pre ++ a :: post ∧ ys = pre ++ b :: post := by
  obtain ⟨hlen, i, hi, k, hk, hflip, hsame⟩ := h
  have hset : ys = xs.set i (ys.getD i 0) := by
    refine List.ext_getElem (by simp [hlen]) fun j hj hj' => ?_
    by_cases hji : j = i
    · subst hji
      simp [hj]
    · have hx : j < xs.length := hlen ▸ hj
      have hget := hsame j hji
      rw [List.getD_eq_getElem _ _ hj, List.getD_eq_getElem _ _ hx] at hget
      rw [List.getElem_set_ne (Ne.symm hji), hget]
  refine ⟨xs.take i, xs.drop (i + 1), xs[i], ys.getD i 0, ?_, ?_, ?_⟩
  · rw [hflip, List.getD_eq_getElem _ _ hi]
    exact ne_xor_twoPow _ hk
  · rw [List.getElem_cons_drop, List.take_append_drop]
  · exact hset.trans (by rw [List.set_eq_take_append_cons_drop, if_pos hi])

end

/-! ## The obligations -/

/-- Settles O13: the register chains across an append; with neither reflection nor final XOR it is what is
returned. A final XOR breaks the law for the returned value. -/
theorem crcChains : Obligations.CrcChains := by
  refine ⟨fun c bytes k n i hr hx hk _ => ?_, fun c xs ys i => crcReg_append c i xs ys,
    ⟨{ cfg with crcXorout := 0xFFFF }, [0x31, 0x32], 1, 2, 0xFFFF, by decide, by decide, ?_⟩, ?_, ?_⟩
  · simp only [crc16, crcFinal_plain c _ hr hx]
    exact crcReg_take_of_le c bytes n k i hk
  · decide +kernel
  · decide +kernel
  · decide +kernel

/-- Settles O14: every byte's entry is one step of the table form. -/
theorem crcTableFormAgrees : Obligations.CrcTableFormAgrees := by
  intro c bytes i hr hx
  have hentry (b : Byte) : crc16 c [b] 1 0 = crcByte c 0 b := crcFinal_plain c _ hr hx
  rw [crc16_length, crcFinal_plain c _ hr hx, crcReg]
  congr 1
  funext r b
  rw [hentry]
  exact crcByte_table_step c r b hr

/-- Settles O15: with the constant term every stage of the CRC is injective in the register and in the byte
that enters. -/
theorem crcDetectsEverySingleBitFlip : Obligations.CrcDetectsEverySingleBitFlip := by
  intro c xs ys i hp hapart
  obtain ⟨pre, post, a, b, hab, rfl, rfl⟩ := oneBitApart_split hapart
  rw [crc16_length, crc16_length]
  exact (crcFinal_injective c).ne (crcReg_ne_of_byte_ne hp i pre post hab)

/-- Settles O11: the domain check decides, and the bytes beyond the length do not matter. -/
theorem crcCommandReturnsTheCrc : Obligations.CrcCommandReturnsTheCrc := by
  intro bytes n i s
  rw [exec_eq_perform, crc16_take]
  exact ⟨fun h => if_pos h, fun h => if_neg h.not_ge⟩

/-- Settles O12: `crc16` unfolds to R111's text, only `take length` is read, and zeros never leave zero. -/
theorem crcCornerCases : Obligations.CrcCornerCases := by
  unfold Obligations.CrcCornerCases
  simp only [byteIn_eq_crcByte, returned_eq_crcFinal]
  refine ⟨fun _ _ _ _ _ => rfl, fun _ _ _ => rfl, fun _ _ _ => rfl,
    fun c bytes more i => crc16_append_left c bytes i more, fun c n hr hx => ?_, by decide⟩
  rw [crc16, List.take_of_length_le (by simp), crcFinal_plain c _ hr hx, crcReg_replicate_zero]

end Sys2Proof.Machine
end

section
/-! PROOFS. The arms of RX.BYTE before the end of a frame (spec/41_frame_parser.md R120 to R129): what one
byte stores and counts, and any run of noise. -/

namespace Sys2Proof.Machine

open Sys2Proof.Claims

/-- Settles O16: every arm of RX.BYTE (`rxByteCommon`) and every decoder (`codecPort`) tests `connected`
first. -/
theorem inputIgnoredWhileNotConnected : Obligations.InputIgnoredWhileNotConnected := by
  rintro i s (⟨st, b, hi⟩ | ⟨t, inst, body, rfl | rfl⟩) hc
  all_goals have hn : ¬ s.connected = true := Bool.not_eq_true _ ▸ hc
  · simp only [fsmArms, List.mem_cons, List.not_mem_nil, or_false] at hi
    obtain rfl | rfl | rfl | rfl | rfl | rfl | rfl | rfl | rfl | rfl := hi <;> exact if_neg hn
  · exact (exec_decodeFrameType t inst body s).trans (if_neg hn)
  · exact if_neg hn

/-! ## One byte stored (R121, R123 to R128) -/

section
variable {s : State} (hwf : s.buf.wf = true)
include hwf

/-- A header byte is stored at its fixed index; `len` is set before where the arm latches it. -/
theorem stored_afterStore (a : Nat) (b : Byte) (cur : BitVec 9) (st : Nat) (len : Byte) :
    Stored s ((s.setLen len).afterStore cfg a b cur st) a b cur.toNat st len :=
  ⟨fun x => Memory.read_write hwf a x b, rfl, rfl⟩

/-- A body byte or the low CRC byte is stored at `cursor`, which advances. -/
theorem stored_atVerify (b : Byte) (st : Nat) :
    Stored s (((s.atVerify cfg b).setState st).finish .accepted) s.cursor.toNat b
      (s.cursor + 1).toNat st s.len :=
  ⟨fun x => Memory.read_write hwf s.cursor.toNat x b, rfl, rfl⟩
end

/-- Settles O17: each of the five arms ends in `State.afterStore`. -/
theorem rxHeaderBytesAreStored : Obligations.RxHeaderBytesAreStored := by
  intro b s hc hwf
  exact ⟨⟨_, rxByteCommon_live hc, stored_afterStore hwf 0 0xFE 1 1 s.len⟩,
    ⟨_, rxByteCommon_live hc, stored_afterStore hwf 1 b 2 2 s.len⟩,
    ⟨_, rxByteCommon_live hc, stored_afterStore hwf 2 b 3 3 s.len⟩,
    ⟨_, rxByteCommon_live hc, stored_afterStore hwf 3 b 4 4 s.len⟩,
    ⟨_, if_pos hc, stored_afterStore hwf 4 b 5 (if b = 0 then 6 else 5) b⟩⟩

/-- Settles O18: both arms push their byte at `cursor`, which does not wrap below the buffer's end. -/
theorem rxBodyAndCrcLowAreStoredAtCursor : Obligations.RxBodyAndCrcLowAreStoredAtCursor := by
  intro b s hc hwf hcur
  have hnext : (s.cursor + 1).toNat = s.cursor.toNat + 1 := by bv_omega
  rw [← hnext]
  exact ⟨⟨_, (rxByteCommon_live hc).trans (rxPush_ok hcur), stored_atVerify hwf b _⟩,
    ⟨_, (rxByteCommon_live hc).trans (rxPush_ok hcur), stored_atVerify hwf b 7⟩⟩

/-! ## Nothing stored (R122, R129) -/

/-- A run of bytes without the marker leaves a waiting parser waiting and adds their number to
`bytes_rcvd` (R122, R137 (c)). -/
theorem rxChunk_noise {noise : List Byte} {s : State} (hc : s.connected = true) (h0 : s.state = 0)
    (hnoise : 0xFE ∉ noise) (hfits : s.stats.bytesRcvd < 2 ^ cfg.cntW) : ∃ hist result,
      rxChunk noise s = .next { s with
        stats := { s.stats with bytesRcvd := satInc cfg s.stats.bytesRcvd noise.length },
        hist := hist, result := result } := by
  induction noise generalizing s with
  | nil => exact ⟨s.hist, s.result, by rw [rxChunk_nil, List.length_nil, satInc_zero hfits]⟩
  | cons b noise ih =>
    obtain ⟨hb, hnoise⟩ := List.ne_and_not_mem_of_not_mem_cons hnoise
    have hbyte := (rxByte_moved hc).mpr (.noise (c := cfg) h0 hb.symm)
    obtain ⟨hist, result, hrest⟩ := ih (s := (s.record.bumpBytesRcvd cfg).finish .noise) hc h0 hnoise
      (satInc_lt cfg _ _)
    refine ⟨hist, result, rxChunk_cons.mpr ⟨_, hbyte, hrest.trans ?_⟩⟩
    simp only [State.finish_stats, State.bumpBytesRcvd_stats, State.record_stats, satInc_satInc,
      List.length_cons, Nat.add_comm 1]
    rfl

/-- Settles O20: by the decoder's first row, the arm, and induction on the run. -/
theorem rxNoiseOnlyCounts : Obligations.RxNoiseOnlyCounts := by
  refine ⟨fun b => rfl, fun b s hc => if_pos hc, fun noise s hc h0 hnoise hfits => ?_⟩
  obtain ⟨hist, result, h⟩ := rxChunk_noise hc h0 hnoise (Stats.fits_iff.mp hfits 2)
  exact ⟨_, h, rfl⟩

/-- Settles O21: the arm idles the parser and answers, whatever its operands. -/
theorem rxBadstateResetsTheParser : Obligations.RxBadstateResetsTheParser :=
  fun _ _ _ hc => if_pos hc

end Sys2Proof.Machine
end

section
/-! PROOFS. The end of a frame (spec/41_frame_parser.md R130 to R132): RX.CRCHI is VERIFY on the buffer
with its byte in place, and then the idle parser. -/

namespace Sys2Proof.Machine

open Sys2Proof.Claims

/-! ## RX.CRCHI -/

section
variable {s t : State} {b : Byte}

theorem exec_rxCrchi_next (hc : s.connected = true) : exec (.rxCrchi b) s = .next t ↔
    s.cursor.toNat < 262 ∧ t = (verify cfg (s.atVerify cfg b)).idleParser := by
  show rxByteCommon cfg _ s = _ ↔ _
  rw [rxByteCommon_live hc]
  exact rxPush_next

theorem exec_rxCrchi (hc : s.connected = true) (hcur : s.cursor.toNat < 262) (b : Byte) :
    exec (.rxCrchi b) s = .next (verify cfg (s.atVerify cfg b)).idleParser :=
  (exec_rxCrchi_next hc).mpr ⟨hcur, rfl⟩
end

/-- Settles O24: the arm's last act is to idle the parser. -/
theorem frameEndIdlesTheParser : Obligations.FrameEndIdlesTheParser := by
  intro b s t hc h
  obtain ⟨-, rfl⟩ := (exec_rxCrchi_next hc).mp h
  exact ⟨rfl, rfl, rfl⟩

/-- Settles O25: the three ends of VERIFY. -/
theorem frameEndMovesOneCounter : Obligations.FrameEndMovesOneCounter := by
  intro b s t hc h
  obtain ⟨-, rfl⟩ := (exec_rxCrchi_next hc).mp h
  obtain ⟨run, hrun, e⟩ := verify_effect cfg (s.atVerify cfg b).buf (s.atVerify cfg b).len
  rw [e _ rfl rfl]
  cases hrun with
  | badCrc => exact .inl ⟨rfl, rfl, rfl, rfl⟩
  | dispatch ty inst m => exact .inr (.inl ⟨ty, inst, m, rfl, rfl, rfl, rfl⟩)
  | fail r => exact .inr (.inr ⟨r, rfl, rfl, rfl, rfl⟩)

/-! ## The buffer at the end of a frame -/

section
variable {s : State} (hwf : s.buf.wf = true) (b : Byte)
include hwf

theorem read_atVerify (x : Nat) : (s.atVerify cfg b).buf.read x = lastStored s b x :=
  Memory.read_write hwf s.cursor.toNat x b

theorem slice_atVerify (a n : Nat) :
    (s.atVerify cfg b).buf.slice a n = lastSlice s b a n :=
  Memory.slice_congr fun x _ _ => read_atVerify hwf b x

/-- Two bytes of the buffer as a number, low byte first (R53). -/
theorem readLe_atVerify (a : Nat) : (s.atVerify cfg b).buf.readLe a 2 =
    (lastStored s b a).toNat + 256 * (lastStored s b (a + 1)).toNat := by
  rw [Memory.readLe_two, read_atVerify hwf, read_atVerify hwf]

/-- The instance of a frame, low byte first (R71). -/
theorem inst_atVerify : BitVec.ofNat 16 ((s.atVerify cfg b).buf.readLe 2 2) =
    lastStored s b 3 ++ lastStored s b 2 := by
  have hlo : (lastStored s b 2).toNat < 2 ^ 8 := (lastStored s b 2).isLt
  have hhi : (lastStored s b (2 + 1)).toNat < 2 ^ 8 := (lastStored s b 3).isLt
  rw [readLe_atVerify hwf]
  apply BitVec.eq_of_toNat_eq
  rw [BitVec.toNat_append, ← Nat.shiftLeft_add_eq_or_of_lt hlo, Nat.shiftLeft_eq, BitVec.toNat_ofNat,
    Nat.mod_eq_of_lt (by omega), Nat.add_comm, Nat.mul_comm]

/-- VERIFY's test is the CRC's agreement as the statements have it (R131). -/
theorem crcAgrees_atVerify : CrcAgrees cfg (s.atVerify cfg b).buf s.len ↔ CrcMatches s b := by
  have hlo := (lastStored s b (5 + s.len.toNat)).isLt
  have hhi := (lastStored s b (6 + s.len.toNat)).isLt
  unfold CrcAgrees CrcMatches
  rw [slice_atVerify hwf, readLe_atVerify hwf, ← BitVec.toNat_inj, BitVec.toNat_ofNat,
    show 5 + s.len.toNat + 1 = 6 + s.len.toNat by omega, Nat.mod_eq_of_lt (by omega)]
end

/-- Settles O22: VERIFY finds no agreement, and counts it. -/
theorem rxBadCrcIsCountedAndSilent : Obligations.RxBadCrcIsCountedAndSilent := by
  intro b s hc hwf hcur hcrc
  have hverify : verify cfg (s.atVerify cfg b) = ((s.atVerify cfg b).bumpBadCrc cfg).finish .badCrc :=
    verify_of_not_crcAgrees (mt (crcAgrees_atVerify hwf b).mp hcrc)
  refine ⟨_, exec_rxCrchi hc hcur b, ?_⟩
  rw [hverify]
  exact ⟨read_atVerify hwf b, rfl⟩

/-! ## A CRC-valid frame -/

/-- The multiplexer does not look at the history, and keeps it (R140). -/
theorem dec_record (c : Cfg) (t : Byte) (inst : U16) (body : List Byte) (s : State) :
    dec c t inst body s = { dec c t inst body s.record with hist := s.hist } := by
  obtain ⟨m, e⟩ | ⟨r, -, e⟩ := dec_cases c t inst body <;> rw [e, e] <;> rfl

/-- The decoder of a type id, started in the state in which VERIFY hands over the frame (R131). -/
theorem exec_decodeFrameType_verified {s : State} {b : Byte} {buf : Memory} (hc : s.connected = true)
    (hbuf : buf = (s.atVerify cfg b).buf) (t : Byte) (inst : U16) (body : List Byte) :
    exec (decodeFrameType t inst body) (verified s buf) =
      .next (dec cfg t inst body ((s.atVerify cfg b).bumpMsgsRcvd cfg).record) := by
  subst hbuf
  exact (exec_decodeFrameType ..).trans (if_pos hc)

/-- Settles O23: VERIFY calls the multiplexer on the bytes in the buffer, and the instruction that the
type id selects runs the same entry, in a state whose history has one more point. -/
theorem rxGoodCrcRunsTheSelectedDecoder : Obligations.RxGoodCrcRunsTheSelectedDecoder := by
  intro b s hc hwf hcur hcrc
  have hverify : verify cfg (s.atVerify cfg b) =
      dec cfg (lastStored s b 1) (lastStored s b 3 ++ lastStored s b 2) (lastSlice s b 5 s.len.toNat)
        ((s.atVerify cfg b).bumpMsgsRcvd cfg) := by
    rw [verify_of_crcAgrees ((crcAgrees_atVerify hwf b).mpr hcrc), read_atVerify hwf, inst_atVerify hwf,
      slice_atVerify hwf, State.atVerify_len]
  obtain ⟨hbuf, -⟩ := verify_frame cfg (s.atVerify cfg b)
  refine ⟨_, _, exec_rxCrchi hc hcur b, fun x => ?_, exec_decodeFrameType_verified hc hbuf _ _ _, ?_⟩
  · rw [State.idleParser_buf, hbuf, read_atVerify hwf]
  · rw [hverify, dec_record]
    rfl

end Sys2Proof.Machine
end

section
/-! PROOFS. Forward progress (spec/41_frame_parser.md R137 (a)): the tagged form of R35 bounds the bytes
still to come, and each byte lowers the bound. -/

namespace Sys2Proof.Machine

open Sys2Proof.Claims

/-- How many bytes at most end the frame: one per header byte, the longest body while the length byte
is to come, and the two CRC bytes (R70). -/
def bytesLeft : Tagged → Nat
  | .waitForStart => 0
  | .readHeader p => (4 - p) + 258
  | .readBody r => r + 2
  | .readCrc h => if h = 0 then 2 else 1

section
variable {c : Cfg} {s t : State}

/-- The tagged form inside a frame (R34, R35). -/
theorem State.ParserInv.tagOf_cases (hs : s.ParserInv) (h0 : s.state ≠ 0) :
    (∃ p, 1 ≤ p ∧ tagOf s = .readHeader p) ∨
    (∃ r, 1 ≤ r ∧ r ≤ 255 ∧ tagOf s = .readBody r) ∨ ∃ h, tagOf s = .readCrc h := by
  obtain ⟨hmax, -, -, hbody, -⟩ := hs
  have hlen : s.len.toNat < 256 := s.len.isLt
  obtain h4 | h5 | h6 | h7 : s.state ≤ 4 ∨ s.state = 5 ∨ s.state = 6 ∨ s.state = 7 := by omega
  · exact .inl ⟨s.state, by omega, tagOf_header (by omega) h4⟩
  · obtain ⟨-, hlow, hhigh⟩ := hbody h5
    exact .inr (.inl ⟨_, by omega, by omega, tagOf_body h5⟩)
  · exact .inr (.inr ⟨0, tagOf_crclo h6⟩)
  · exact .inr (.inr ⟨1, tagOf_crchi h7⟩)

theorem bytesLeft_bounds (hs : s.ParserInv) (h0 : s.state ≠ 0) :
    0 < bytesLeft (tagOf s) ∧ bytesLeft (tagOf s) ≤ 261 := by
  obtain ⟨p, hp, e⟩ | ⟨r, -, hr, e⟩ | ⟨h, e⟩ := hs.tagOf_cases h0 <;> simp only [e, bytesLeft]
  · omega
  · omega
  · split <;> decide

/-- Inside a frame each byte, whatever it is, lowers the bound. -/
theorem Moved.bytesLeft_lt {b : Byte} (h : Moved c s b t) (hs : s.ParserInv) (h0 : s.state ≠ 0) :
    bytesLeft (tagOf t) < bytesLeft (tagOf s) := by
  have htag : tagOf t = tagNext (tagOf s) b := by
    obtain ⟨hmax, -, -, hbody, -⟩ := hs
    exact h.tagOf_eq hmax fun h5 => (hbody h5).2.2
  have hlen : b.toNat < 256 := b.isLt
  obtain ⟨p, -, e⟩ | ⟨r, hr, -, e⟩ | ⟨half, e⟩ := hs.tagOf_cases h0 <;>
    simp only [htag, e, tagNext]
  · by_cases hp : p < 4
    · simp only [if_pos hp, bytesLeft]
      omega
    · by_cases hb : b = 0
      · simp [hp, hb, bytesLeft]
      · simp only [if_neg hp, if_neg hb, bytesLeft]
        omega
  · by_cases h1 : r = 1
    · simp [h1, bytesLeft]
    · simp only [if_neg h1, bytesLeft]
      omega
  · by_cases hh : half = 0 <;> simp [hh, bytesLeft]
end

/-- As many bytes as the bound says, whatever they are, bring the parser back to WaitForStart. -/
theorem exists_take_idle {bs : List Byte} {s : State} (hc : s.connected = true)
    (hwf : s.buf.wf = true) (hs : s.ParserInv) (h0 : s.state ≠ 0)
    (hleft : bytesLeft (tagOf s) ≤ bs.length) :
    ∃ k t, 1 ≤ k ∧ k ≤ bs.length ∧ rxChunk (bs.take k) s = .next t ∧ t.state = 0 := by
  induction bs generalizing s with
  | nil => exact absurd hleft (Nat.not_le_of_lt (bytesLeft_bounds hs h0).1)
  | cons b bs ih =>
    have hcur : s.cursor.toNat ≤ 261 := by
      obtain ⟨-, -, -, -, -, -, -, -, hcur⟩ := hs
      exact hcur
    obtain ⟨u, hu⟩ := rxByteUnder_answers (c := cfg) (Nat.lt_succ_of_le hcur) b
    rw [← rxByte_eq] at hu
    have hmoved := (rxByte_moved hc).mp hu
    by_cases hidle : u.state = 0
    · exact ⟨1, u, le_rfl, Nat.le_add_left 1 _, rxChunk_cons.mpr ⟨u, hu, rfl⟩, hidle⟩
    · have hleft' : bytesLeft (tagOf u) ≤ bs.length :=
        Nat.le_of_lt_succ ((hmoved.bytesLeft_lt hs h0).trans_le hleft)
      obtain ⟨k, t, h1, hk, ht, hstate⟩ := ih (hmoved.connected_eq.trans hc)
        ((exec_effect hu).buf_wf hwf) (hmoved.parserInv hwf hs) hidle hleft'
      exact ⟨k + 1, t, Nat.le_add_left 1 k, Nat.succ_le_succ hk, rxChunk_cons.mpr ⟨u, hu, ht⟩, hstate⟩

/-- Settles O27: 261 bytes are as many as the bound can ask for inside a frame. -/
theorem parserReturnsWithin261Bytes : Obligations.ParserReturnsWithin261Bytes := by
  intro s bs hs hc h0 hlen
  obtain ⟨hwf, hparser, -⟩ := hs
  obtain ⟨k, t, h1, hk, ht, hstate⟩ :=
    exists_take_idle (bs := bs) hc hwf hparser h0 (hlen ▸ (bytesLeft_bounds hparser h0).2)
  exact ⟨k, t, h1, hlen ▸ hk, ht, hstate⟩

end Sys2Proof.Machine
end

section
/-! PROOFS. The layouts (spec/30_encoding.md R79 to R90; spec/42_codec_decode.md R142, R144, R147 to
R157): the decode multiplexer on a body and whatever follows it. Each layout is read off the encoding of
its message. -/

namespace Sys2Proof.Machine

open Sys2Proof.Claims

/-! ## The decode multiplexer and the length of the body (R140 to R144) -/

section
variable {c : Cfg} {ty : MsgType} {body : List Byte}

/-- A decoder reads the first SIZE bytes of a body that has them. -/
theorem deliver_take (h : ty.size c ≤ body.length) (inst : U16) (decoder : List Byte → Message)
    (s : State) :
    deliver c ty inst (body.take (ty.size c)) decoder s = deliver c ty inst body decoder s := by
  simp [deliver, h, List.take_take]

/-- `DEC` reads the first SIZE bytes of a body that has them. -/
theorem dec_take (hid : Function.Injective c.idTable) (h : ty.size c ≤ body.length) (inst : U16)
    (s : State) :
    dec c (c.idTable ty) inst (body.take (ty.size c)) s = dec c (c.idTable ty) inst body s := by
  unfold dec
  rw [IdTable.typeOf_id hid]
  cases ty with
  | request => rfl
  | _ => exact deliver_take h inst _ s

/-- What follows the first SIZE bytes of a body makes no difference to `DEC` (R144). -/
theorem dec_append (hid : Function.Injective c.idTable) (h : ty.size c ≤ body.length) (inst : U16)
    (tail : List Byte) (s : State) :
    dec c (c.idTable ty) inst (body ++ tail) s = dec c (c.idTable ty) inst body s := by
  rw [← dec_take hid (h.trans (List.length_append ▸ Nat.le_add_right ..)),
    List.take_append_of_le_length h, dec_take hid h]

/-- `DEC` of a body shorter than SIZE is a DecodingError (R142). -/
theorem dec_of_short (hid : Function.Injective c.idTable) (hr : ty ≠ .request)
    (h : body.length < ty.size c) (inst : U16) (s : State) :
    dec c (c.idTable ty) inst body s =
      failDecode c (.decodingError (c.idTable ty) inst body.length (ty.size c)) s := by
  unfold dec
  rw [IdTable.typeOf_id hid]
  cases ty with
  | request => exact absurd rfl hr
  | _ => exact if_pos h

end

/-- Settles O36: `DEC` fails on a short body, and does not look at a tail. -/
theorem bodyShorterFailsAndTailIsIgnored : Obligations.BodyShorterFailsAndTailIsIgnored := by
  refine ⟨fun ty inst body s hc hr h => ?_, fun ty inst body tail s h => ?_⟩
  · rw [exec_decodeFrameType, codecPort_eq, if_pos hc]
    exact congrArg _ (dec_of_short (c := cfg) MsgType.id_injective hr h inst s.record)
  · have hdec : dec cfg ty.id inst (body ++ tail) s.record = dec cfg ty.id inst body s.record :=
      dec_append MsgType.id_injective h inst tail s.record
    simp only [exec_decodeFrameType, codecPort_eq, hdec]

/-! ## The layouts, low byte first (R53, R147 to R157) -/

/-- A u32 or f32 on the wire (R53). -/
theorem le32_eq_le (x : BitVec 32) : le32 x = le x.toNat 4 := by
  simp only [le32, le, List.cons.injEq, and_true]
  refine ⟨?_, ?_, ?_, ?_⟩ <;> apply BitVec.eq_of_toNat_eq <;>
    simp [Nat.shiftRight_eq_div_pow, Nat.div_div_eq_div_mul]

/-- A byte on the wire (R53). -/
theorem le_byte (b : Byte) : le b.toNat 1 = [b] := by
  simp [le]

/-- The decoder of a message's type, on an encoded body and whatever follows it, dispatches the message
(R140, R144, R160). -/
theorem exec_decodeFrameType_of_encodeBody {m : Message} {body : List Byte} {s : State}
    (hc : s.connected = true) (h : encodeBody cfg m = .ok body) (hr : m.type ≠ .request) (inst : U16)
    (rest : List Byte) : exec (decodeFrameType m.type.id inst (body ++ rest)) s =
      .next (dispatched s m.type.id inst (received cfg m)) := by
  rw [exec_decodeFrameType, codecPort_eq, if_pos hc]
  have hlen := length_of_encodeBody cfg_valid h
  exact congrArg _ ((dec_append (c := cfg) MsgType.id_injective hlen.ge inst rest s.record).trans
    (dec_of_encodeBody cfg_valid h hr inst s.record))

/-- Settles O31: each body is an encoding. -/
theorem decIntegerLayouts : Obligations.DecIntegerLayouts := by
  intro inst x y z p q r f rest s hc
  have hmodes : encodeBody cfg (.modes ⟨p.toNat, q.toNat, r.toNat⟩) = .ok [p, q, r] := by
    simp [encodeBody, bodyModes, putU_bitvec, putAll_ok_cons, Except.map, le_byte]
  have hrobot : encodeBody cfg (.robotCommand ⟨p.toNat⟩) = .ok [p] := by
    simp [encodeBody, bodyRobotCommand, putU_bitvec, le_byte]
  have hdriving : encodeBody cfg (.drivingCommand ⟨x.toNat, y, z⟩) =
      .ok (le32 x ++ le32 y ++ le32 z) := by
    simp [encodeBody, bodyDrivingCommand, putU_bitvec, putF32, putAll_ok_cons, Except.map, ← le32_eq_le]
  have hcapture : encodeBody cfg
      (.captureCommand ⟨p.toNat, q.toNat, f.toNat, x.toNat, y.toNat⟩) =
      .ok ([p, q] ++ le16 f ++ le32 x ++ le32 y) := by
    simp [encodeBody, bodyCaptureCommand, putU_bitvec, putAll_ok_cons, Except.map, ← le32_eq_le,
      ← le16_eq_le, le_byte]
  exact ⟨exec_decodeFrameType_of_encodeBody hc hmodes nofun inst rest,
    exec_decodeFrameType_of_encodeBody hc hrobot nofun inst rest,
    exec_decodeFrameType_of_encodeBody hc hdriving nofun inst rest,
    exec_decodeFrameType_of_encodeBody hc hcapture nofun inst rest⟩

/-- Settles O32: each body is an encoding. -/
theorem decFloatLayouts : Obligations.DecFloatLayouts := by
  intro inst a b c d e f g h i rest s hc
  have hcapture : encodeBody cfg (.captureData ⟨a, b, c, d, e, f, g, h, i⟩) = .ok (le32 a ++ le32 b ++
      le32 c ++ le32 d ++ le32 e ++ le32 f ++ le32 g ++ le32 h ++ le32 i) := by
    simp [encodeBody, bodyCaptureData, putF32, putAll_ok_cons, Except.map, ← le32_eq_le]
  have hpid : encodeBody cfg (.pidParams ⟨a, b, c, d, e, f, g⟩) = .ok (le32 a ++ le32 b ++ le32 c ++
      le32 d ++ le32 e ++ le32 f ++ le32 g) := by
    simp [encodeBody, bodyPidParams, putF32, putAll_ok_cons, Except.map, ← le32_eq_le]
  exact ⟨exec_decodeFrameType_of_encodeBody hc hcapture nofun inst rest,
    exec_decodeFrameType_of_encodeBody hc hpid nofun inst rest⟩

/-- Settles O33: each body is the encoding of a text that needs no padding. -/
theorem decTextLayouts : Obligations.DecTextLayouts := by
  intro inst a v text rest s hc htext
  have hassert : encodeBody cfg (.assertMessage ⟨a.toNat, text, v.toNat⟩) =
      .ok (le32 a ++ text ++ le32 v) := by
    simp [encodeBody, bodyAssertMessage, putU_bitvec, putChar, htext, putAll_ok_cons, Except.map,
      ← le32_eq_le]
  have hdebug : encodeBody cfg (.debugMessage ⟨text, v.toNat⟩) = .ok (text ++ le32 v) := by
    simp [encodeBody, bodyDebugMessage, putU_bitvec, putChar, htext, putAll_ok_cons, Except.map,
      ← le32_eq_le]
  have hreceived : padded 200 text = text := padTo_full htext
  have h := exec_decodeFrameType_of_encodeBody hc hassert nofun inst rest
  have h' := exec_decodeFrameType_of_encodeBody hc hdebug nofun inst rest
  simp only [received, hreceived] at h h'
  exact ⟨h, h'⟩

/-- Settles O34: the body is an encoding, and what `DEC` gives back has the derived fields (R152). -/
theorem decStatusDataWithDerivedFields : Obligations.DecStatusDataWithDerivedFields := by
  intro inst bat roll pitch yaw mm sm st pad telem rest s hc htelem
  have h : encodeBody cfg (.statusData
      ⟨bat, roll, pitch, yaw, mm.toNat, sm.toNat, st.toNat, pad.toNat, telem, none⟩) =
      .ok (le32 bat ++ le32 roll ++ le32 pitch ++ le32 yaw ++ [mm, sm, st, pad] ++
        telem.flatMap le32) := by
    simp [encodeBody, bodyStatusData, fieldsStatusData, htelem, putTelem, putAll_f32s, putU_bitvec,
      putF32, putAll_ok_cons, Except.map, ← le32_eq_le, le_byte]
  exact ⟨_, rfl, rfl, rfl, rfl, rfl, rfl, rfl, rfl, rfl, rfl,
    exec_decodeFrameType_of_encodeBody hc h nofun inst rest⟩

/-- Settles O35: each body is an encoding. -/
theorem decRawLayouts : Obligations.DecRawLayouts := by
  intro inst raw name timing rest s hc
  refine ⟨fun hraw => ?_, fun hname htiming => ?_⟩
  · exact exec_decodeFrameType_of_encodeBody (m := .wave ⟨raw⟩) hc (putRaw_ok.mpr ⟨hraw, rfl⟩)
      nofun inst rest
  · have h : encodeBody cfg (.taskTimingResult ⟨name, timing⟩) = .ok (name ++ timing) := by
      simp [encodeBody, bodyTaskTimingResult, putChar, putRaw, hname, htiming, putAll_ok_cons,
        Except.map]
    have hdec := exec_decodeFrameType_of_encodeBody hc h nofun inst rest
    have hreceived : padded 32 name = name := padTo_full hname
    rw [received, hreceived] at hdec
    exact hdec

end Sys2Proof.Machine
end

section
/-! PROOFS. The two directions of the codec (spec/42_codec_decode.md R160): writing a field that was read
at an offset gives back the bytes there, so a layout's fields give back the body's front. -/

namespace Sys2Proof.Machine

open Sys2Proof.Claims

/-- Settles O45, encoder by encoder. -/
theorem decodeOfEncodedBodyIsTheMessage : Obligations.DecodeOfEncodedBodyIsTheMessage :=
  fun _ _ _ hc h hr => decodeBody_of_encodeBody hc h hr

/-! ## Writing the fields a decoder read (R145, R171) -/

section
variable {c : Cfg} {body : List Byte} {o n : Nat}

theorem putU_uintAt (field : Field) (h : o + n ≤ body.length) :
    putU n (uintAt body o n) field = .ok (bytesAt body o n) := by
  have hlen := bytesAt_length body o n h
  have hlt := unle_lt (bytesAt body o n)
  rw [hlen, show 256 = 2 ^ 8 from rfl, ← pow_mul] at hlt
  refine putU_ok.mpr ⟨Int.natCast_nonneg _, Int.ofNat_lt.mpr hlt, ?_⟩
  exact ((congrArg _ hlen.symm).trans (le_unle _)).symm

theorem le_f32At (h : o + 4 ≤ body.length) : le (f32At body o).toNat 4 = bytesAt body o 4 := by
  have hlen := bytesAt_length body o 4 h
  have hlt := unle_lt (bytesAt body o 4)
  rw [hlen] at hlt
  rw [f32At, BitVec.toNat_ofNat, Nat.mod_eq_of_lt (by omega)]
  exact (congrArg _ hlen.symm).trans (le_unle _)

theorem putF32_f32At (h : o + 4 ≤ body.length) : putF32 (f32At body o) = .ok (bytesAt body o 4) :=
  congrArg _ (le_f32At h)

theorem putChar_bytesAt (field : Field) (h : o + n ≤ body.length) :
    putChar n (bytesAt body o n) field = .ok (bytesAt body o n) :=
  have hlen := bytesAt_length body o n h
  putChar_ok.mpr ⟨hlen.le, (padTo_full hlen).symm⟩

theorem putRaw_bytesAt (field : Field) (h : o + n ≤ body.length) :
    putRaw n (bytesAt body o n) field = .ok (bytesAt body o n) :=
  putRaw_ok.mpr ⟨bytesAt_length body o n h, rfl⟩

theorem flatMap_f32sAt (h : o + 4 * n ≤ body.length) :
    ((f32sAt body o n).flatMap fun x => le x.toNat 4) = bytesAt body o (4 * n) := by
  induction n with
  | zero => simp [f32sAt, bytesAt]
  | succ n ih =>
    have hlast : le (f32At body (o + 4 * n)).toNat 4 = bytesAt body (o + 4 * n) 4 :=
      le_f32At (by omega)
    rw [f32sAt, List.range_succ, List.map_append, List.flatMap_append]
    exact (congrArg₂ _ (ih (by omega)) (by simpa using hlast)).trans (bytesAt_join ..)

theorem putTelem_f32sAt (h : o + 4 * n ≤ body.length) :
    putTelem n (f32sAt body o n) = .ok (bytesAt body o (4 * n)) :=
  putTelem_ok.mpr ⟨by simp [f32sAt], (flatMap_f32sAt h).symm⟩

/-- Slices of which each begins where the one before it ends are one slice. -/
theorem bytesAt_join_of_eq {o' k : Nat} (h : o' = o + n) :
    bytesAt body o n ++ bytesAt body o' k = bytesAt body o (n + k) :=
  h ▸ bytesAt_join ..

/-! ## Encoding the messages the decoders read -/

theorem bodyAssertMessage_decode (h : 208 ≤ body.length) :
    bodyAssertMessage (decodeAssertMessage body) = .ok (bytesAt body 0 208) := by
  simp (disch := omega) [bodyAssertMessage, decodeAssertMessage, putU_uintAt, putChar_bytesAt, putAll_ok_cons,
    Except.map, bytesAt_join_of_eq, Config.textCap]

theorem bodyDebugMessage_decode (h : 204 ≤ body.length) :
    bodyDebugMessage (decodeDebugMessage body) = .ok (bytesAt body 0 204) := by
  simp (disch := omega) [bodyDebugMessage, decodeDebugMessage, putU_uintAt, putChar_bytesAt, putAll_ok_cons,
    Except.map, bytesAt_join_of_eq, Config.textCap]

theorem bodyCaptureData_decode (h : 36 ≤ body.length) :
    bodyCaptureData (decodeCaptureData body) = .ok (bytesAt body 0 36) := by
  simp (disch := omega) [bodyCaptureData, decodeCaptureData, putF32_f32At, putAll_ok_cons, Except.map,
    bytesAt_join_of_eq]

theorem bodyDrivingCommand_decode (h : 12 ≤ body.length) :
    bodyDrivingCommand (decodeDrivingCommand body) = .ok (bytesAt body 0 12) := by
  simp (disch := omega) [bodyDrivingCommand, decodeDrivingCommand, putU_uintAt, putF32_f32At, putAll_ok_cons,
    Except.map, bytesAt_join_of_eq]

theorem bodyCaptureCommand_decode (h : 12 ≤ body.length) :
    bodyCaptureCommand (decodeCaptureCommand body) = .ok (bytesAt body 0 12) := by
  simp (disch := omega) [bodyCaptureCommand, decodeCaptureCommand, putU_uintAt, putAll_ok_cons, Except.map,
    bytesAt_join_of_eq]

theorem bodyStatusData_decode (h : 20 + 4 * c.statusTelem.length ≤ body.length) :
    bodyStatusData c (decodeStatusData c body) = .ok (bytesAt body 0 (20 + 4 * c.statusTelem.length)) := by
  refine sendBody_ok (m := .statusData _).mp ?_
  simp (disch := omega) [sendBody, fieldsStatusData, decodeStatusData, putU_uintAt, putF32_f32At,
    putTelem_f32sAt, putAll_ok_cons, Except.map, bytesAt_join_of_eq, ← Nat.add_assoc]

theorem bodyModes_decode (h : 3 ≤ body.length) :
    bodyModes (decodeModes body) = .ok (bytesAt body 0 3) := by
  simp (disch := omega) [bodyModes, decodeModes, putU_uintAt, putAll_ok_cons, Except.map,
    bytesAt_join_of_eq]

theorem bodyRobotCommand_decode (h : 1 ≤ body.length) :
    bodyRobotCommand (decodeRobotCommand body) = .ok (bytesAt body 0 1) :=
  putU_uintAt _ h

theorem bodyWave_decode (h : c.waveSize ≤ body.length) :
    bodyWave c (decodeWave c body) = .ok (bytesAt body 0 c.waveSize) :=
  putRaw_bytesAt _ (by omega)

theorem bodyPidParams_decode (h : 28 ≤ body.length) :
    bodyPidParams (decodePidParams body) = .ok (bytesAt body 0 28) := by
  simp (disch := omega) [bodyPidParams, decodePidParams, putF32_f32At, putAll_ok_cons, Except.map,
    bytesAt_join_of_eq]

theorem bodyTaskTimingResult_decode (hc : 32 ≤ c.ttrSize) (h : c.ttrSize ≤ body.length) :
    bodyTaskTimingResult c (decodeTaskTimingResult c body) = .ok (bytesAt body 0 c.ttrSize) := by
  simp (disch := omega) [bodyTaskTimingResult, decodeTaskTimingResult, putChar_bytesAt, putRaw_bytesAt,
    putAll_ok_cons, Except.map, bytesAt_join_of_eq, Config.taskNameCap]

/-- The fields a decoder read, written in layout order, are the first SIZE bytes of the body. -/
theorem encodeBody_of_decodeBody {ty : MsgType} {m : Message} (hc : c.Valid)
    (h : ty.size c ≤ body.length) (hm : decodeBody c body ty = some m) :
    encodeBody c m = .ok (body.take (ty.size c)) := by
  rw [← bytesAt_all]
  cases ty <;> cases hm
  case assertMessage => exact bodyAssertMessage_decode h
  case debugMessage => exact bodyDebugMessage_decode h
  case captureData => exact bodyCaptureData_decode h
  case drivingCommand => exact bodyDrivingCommand_decode h
  case captureCommand => exact bodyCaptureCommand_decode h
  case statusData => exact bodyStatusData_decode h
  case modes => exact bodyModes_decode h
  case robotCommand => exact bodyRobotCommand_decode h
  case wave => exact bodyWave_decode h
  case pidParams => exact bodyPidParams_decode h
  case taskTimingResult => exact bodyTaskTimingResult_decode hc.ttrLow h
end

/-- Settles O46, decoder by decoder. -/
theorem encodeOfDecodedBodyIsTheBody : Obligations.EncodeOfDecodedBodyIsTheBody :=
  fun _ _ _ _ hc h hm => encodeBody_of_decodeBody hc h hm

end Sys2Proof.Machine
end

section
/-! PROOFS. Binary64 (spec/00_scope.md R16): the numbers patterns stand for, and `round64`, which gives the
binary64 number nearest to a fraction, ties to even, and so a number of binary64 itself. -/

namespace Sys2Proof.Machine

open Sys2Proof.Claims

/-! ## Patterns and the numbers they stand for (R16) -/

/-- The sign of a pattern as a factor. -/
def signFactor (sg : Bool) : ℚ := if sg then -1 else 1

theorem signFactor_bne (a b : Bool) : signFactor (a != b) = signFactor a * signFactor b := by
  cases a <;> cases b <;> simp [signFactor]

theorem signFactor_mul_self (sg : Bool) : signFactor sg * signFactor sg = 1 := by
  cases sg <;> simp [signFactor]

theorem abs_signFactor_mul (sg : Bool) (x : ℚ) : |signFactor sg * x| = |x| := by
  cases sg <;> simp [signFactor]

theorem abs_signFactor_mul_div (sg : Bool) (n d : ℕ) : |signFactor sg * (n / d)| = (n / d : ℚ) := by
  rw [abs_signFactor_mul, abs_of_nonneg (div_nonneg n.cast_nonneg d.cast_nonneg)]

theorem div_signFactor_mul (sg : Bool) (x y : ℚ) : x / (signFactor sg * y) = signFactor sg * (x / y) := by
  cases sg <;> simp [signFactor, div_neg]

/-- `w` is an integer of at most `p` bits times a power of two with exponent from `lo` to `hi`. -/
def Dyadic (p : ℕ) (lo hi : ℤ) (w : ℚ) : Prop :=
  ∃ k j : ℤ, |k| < 2 ^ p ∧ lo ≤ j ∧ j ≤ hi ∧ w = k * (2 : ℚ) ^ j

/-- A finite pattern of binary64, taken apart. -/
theorem val64_of_ratOf {y : F64} {x : ℚ} (h : ratOf (val64 y) = some x) :
    ∃ (m : ℕ) (e : ℤ), val64 y = .fin (y.getLsbD 63) m e ∧
      x = signFactor (y.getLsbD 63) * m * (2 : ℚ) ^ e ∧ m < 2 ^ 53 ∧ -1074 ≤ e ∧ e ≤ 971 := by
  have hfr : y.toNat % 2 ^ 52 < 2 ^ 52 := Nat.mod_lt _ (by decide)
  have hex : y.toNat / 2 ^ 52 % 2 ^ 11 < 2 ^ 11 := Nat.mod_lt _ (by decide)
  unfold val64 at h ⊢
  simp only at h ⊢
  split at h
  · split at h <;> cases h
  · next hmax =>
    rw [if_neg hmax]
    split at h <;> next hsub =>
      cases h
      simp only [hsub, if_true, if_false]
      exact ⟨_, _, rfl, rfl, by omega, by omega, by omega⟩

/-- A finite pattern of binary32, taken apart. -/
theorem val32_of_ratOf {y : F32} {x : ℚ} (h : ratOf (val32 y) = some x) :
    ∃ (m : ℕ) (e : ℤ), val32 y = .fin (y.getLsbD 31) m e ∧
      x = signFactor (y.getLsbD 31) * m * (2 : ℚ) ^ e ∧ m < 2 ^ 24 ∧ -149 ≤ e ∧ e ≤ 104 := by
  have hfr : y.toNat % 2 ^ 23 < 2 ^ 23 := Nat.mod_lt _ (by decide)
  have hex : y.toNat / 2 ^ 23 % 2 ^ 8 < 2 ^ 8 := Nat.mod_lt _ (by decide)
  unfold val32 at h ⊢
  simp only at h ⊢
  split at h
  · split at h <;> cases h
  · next hmax =>
    rw [if_neg hmax]
    split at h <;> next hsub =>
      cases h
      simp only [hsub, if_true, if_false]
      exact ⟨_, _, rfl, rfl, by omega, by omega, by omega⟩

theorem toNat_pack64 (sg : Bool) {mag : ℕ} (h : mag < 2 ^ 63) :
    (pack64 sg mag).toNat = (if sg then 2 ^ 63 else 0) + mag := by
  rw [pack64, BitVec.toNat_ofNat]
  exact Nat.mod_eq_of_lt (by split <;> omega)

theorem sign_pack64 (sg : Bool) {mag : ℕ} (h : mag < 2 ^ 63) : (pack64 sg mag).getLsbD 63 = sg := by
  rw [BitVec.getLsbD, Nat.testBit_eq_decide_div_mod_eq, toNat_pack64 sg h]
  cases sg <;> simp <;> omega

theorem lowBit_pack64 (sg : Bool) {mag : ℕ} (h : mag < 2 ^ 63) :
    (pack64 sg mag).getLsbD 0 = decide (mag % 2 = 1) := by
  rw [BitVec.getLsbD, Nat.testBit_eq_decide_div_mod_eq, toNat_pack64 sg h]
  cases sg <;> simp
  omega

/-- The fields of a packed pattern. -/
theorem val64_pack64 (sg : Bool) {mag : ℕ} (h : mag < 2 ^ 63) : val64 (pack64 sg mag) =
    if mag / 2 ^ 52 = 2047 then (if mag % 2 ^ 52 = 0 then .inf sg else .nan)
    else if mag / 2 ^ 52 = 0 then .fin sg (mag % 2 ^ 52) (-1074)
    else .fin sg (2 ^ 52 + mag % 2 ^ 52) (((mag / 2 ^ 52 : ℕ) : ℤ) - 1075) := by
  have hex : (pack64 sg mag).toNat / 2 ^ 52 % 2 ^ 11 = mag / 2 ^ 52 := by
    rw [toNat_pack64 sg h]; cases sg <;> simp <;> omega
  have hfr : (pack64 sg mag).toNat % 2 ^ 52 = mag % 2 ^ 52 := by
    rw [toNat_pack64 sg h]; cases sg <;> simp
    omega
  simp only [val64, hex, hfr, sign_pack64 sg h]

/-- A significand under an exponent field, which a carry out of the significand raises by one. -/
theorem ratOf_pack64 (sg : Bool) {q : ℤ} {m : ℕ} (hlow : -1074 ≤ q) (hhigh : q ≤ 970) (hm : m ≤ 2 ^ 53)
    (hn : q = -1074 ∨ 2 ^ 52 ≤ m) :
    ratOf (val64 (pack64 sg ((q + 1074).toNat * 2 ^ 52 + m))) =
      some (signFactor sg * m * (2 : ℚ) ^ q) := by
  obtain ⟨k, rfl⟩ : ∃ k : ℕ, q = k - 1074 := ⟨(q + 1074).toNat, by omega⟩
  rw [show ((k : ℤ) - 1074 + 1074).toNat = k by omega, val64_pack64 sg (by omega)]
  obtain h | h | rfl : m < 2 ^ 52 ∨ (2 ^ 52 ≤ m ∧ m < 2 ^ 53) ∨ m = 2 ^ 53 := by omega
  · obtain rfl : k = 0 := by omega
    rw [if_neg (by omega), if_pos (by omega), Nat.zero_mul, Nat.zero_add, Nat.mod_eq_of_lt h]
    rfl
  · rw [if_neg (by omega), if_neg (by omega), show (k * 2 ^ 52 + m) / 2 ^ 52 = k + 1 by omega,
      show 2 ^ 52 + (k * 2 ^ 52 + m) % 2 ^ 52 = m by omega]
    simp only [ratOf, signFactor]
    congr 3
    push_cast
    ring
  · rw [if_neg (by omega), if_neg (by omega), show (k * 2 ^ 52 + 2 ^ 53) / 2 ^ 52 = k + 2 by omega,
      show 2 ^ 52 + (k * 2 ^ 52 + 2 ^ 53) % 2 ^ 52 = 2 ^ 52 by omega]
    simp only [ratOf, signFactor]
    rw [show ((k + 2 : ℕ) : ℤ) - 1075 = (k - 1074) + 1 by push_cast; ring, zpow_add_one₀ two_ne_zero]
    push_cast
    congr 1
    ring

/-! ## Dyadic fractions -/

section
variable {p p' : ℕ} {lo lo' hi hi' : ℤ} {w w' : ℚ}

theorem Dyadic.mul (h : Dyadic p lo hi w) (h' : Dyadic p' lo' hi' w') :
    Dyadic (p + p') (lo + lo') (hi + hi') (w * w') := by
  obtain ⟨k, j, hk, hlo, hhi, rfl⟩ := h
  obtain ⟨k', j', hk', hlo', hhi', rfl⟩ := h'
  refine ⟨k * k', j + j', ?_, by omega, by omega, ?_⟩
  · rw [abs_mul, pow_add]
    exact mul_lt_mul'' hk hk' (abs_nonneg _) (abs_nonneg _)
  · rw [zpow_add₀ two_ne_zero]
    push_cast
    ring

theorem Dyadic.mono (h : Dyadic p lo hi w) (hp : p ≤ p') (hlo : lo' ≤ lo) (hhi : hi ≤ hi') :
    Dyadic p' lo' hi' w := by
  obtain ⟨k, j, hk, hj, hj', rfl⟩ := h
  exact ⟨k, j, hk.trans_le (pow_le_pow_right₀ (by decide) hp), hlo.trans hj, hj'.trans hhi, rfl⟩

theorem Dyadic.abs_lt (h : Dyadic p lo hi w) : |w| < (2 : ℚ) ^ ((p : ℤ) + hi) := by
  obtain ⟨k, j, hk, -, hj, rfl⟩ := h
  have hk' : |(k : ℚ)| < 2 ^ p := by exact_mod_cast hk
  rw [abs_mul, abs_of_pos (zpow_pos two_pos j : (0 : ℚ) < 2 ^ j), zpow_add₀ two_ne_zero, zpow_natCast]
  exact mul_lt_mul hk' (zpow_le_zpow_right₀ one_le_two hj) (zpow_pos two_pos j) (by positivity)

theorem Dyadic.signFactor_mul (h : Dyadic p lo hi w) (sg : Bool) :
    Dyadic p lo hi (signFactor sg * w) := by
  obtain ⟨k, j, hk, hlo, hhi, rfl⟩ := h
  cases sg
  · exact ⟨k, j, hk, hlo, hhi, one_mul _⟩
  · exact ⟨-k, j, (abs_neg k).symm ▸ hk, hlo, hhi, by simp [signFactor]⟩

theorem dyadic_natCast {n : ℕ} (h : n < 2 ^ p) : Dyadic p 0 0 n :=
  ⟨n, 0, by rw [Nat.abs_cast]; exact_mod_cast h, le_rfl, le_rfl, by simp⟩

theorem dyadic_fin (sg : Bool) {m : ℕ} {e : ℤ} (hm : m < 2 ^ p) (hlo : lo ≤ e) (hhi : e ≤ hi) :
    Dyadic p lo hi (signFactor sg * m * (2 : ℚ) ^ e) := by
  rw [mul_assoc]
  refine Dyadic.signFactor_mul ⟨m, e, ?_, hlo, hhi, by simp⟩ sg
  rw [Nat.abs_cast]
  exact_mod_cast hm
end

/-- Every finite number of binary64. -/
theorem dyadic_of_val64 {y : F64} {x : ℚ} (h : ratOf (val64 y) = some x) : Dyadic 53 (-1074) 971 x := by
  obtain ⟨m, e, -, rfl, hm, hlo, hhi⟩ := val64_of_ratOf h
  exact dyadic_fin _ hm hlo hhi

/-- Every finite number of binary32. -/
theorem dyadic_of_val32 {y : F32} {x : ℚ} (h : ratOf (val32 y) = some x) : Dyadic 24 (-149) 104 x := by
  obtain ⟨m, e, -, rfl, hm, hlo, hhi⟩ := val32_of_ratOf h
  exact dyadic_fin _ hm hlo hhi

/-! ## Rounding a fraction -/

/-- A power of two split over numerator and denominator. -/
theorem two_zpow_eq_div (q : ℤ) : (2 : ℚ) ^ q = 2 ^ q.toNat / 2 ^ (-q).toNat := by
  obtain ⟨k, rfl | rfl⟩ := q.eq_nat_or_neg
  · simp
  · simp

/-- Comparing with a power of two, without fractions. -/
theorem mul_two_pow_lt_iff (n : ℕ) {d : ℕ} (hd : d ≠ 0) (l : ℤ) :
    n * 2 ^ (-l).toNat < d * 2 ^ l.toNat ↔ (n / d : ℚ) < 2 ^ l := by
  have hd0 : (0 : ℚ) < d := by exact_mod_cast Nat.pos_of_ne_zero hd
  rw [two_zpow_eq_div, div_lt_div_iff₀ hd0 (by positivity), mul_comm (2 ^ _ : ℚ)]
  exact_mod_cast Iff.rfl

theorem two_zpow_log2_bounds {n : ℕ} (hn : n ≠ 0) :
    (2 : ℚ) ^ (n.log2 : ℤ) ≤ n ∧ (n : ℚ) < 2 ^ ((n.log2 : ℤ) + 1) := by
  exact_mod_cast And.intro (Nat.log2_self_le hn) Nat.lt_log2_self

/-- The logarithms of numerator and denominator leave a fraction's logarithm two values. -/
theorem div_bounds_of_log2 {n d : ℕ} (hn : n ≠ 0) (hd : d ≠ 0) :
    (2 : ℚ) ^ ((n.log2 : ℤ) - d.log2 - 1) ≤ n / d ∧ (n / d : ℚ) < 2 ^ ((n.log2 : ℤ) - d.log2 + 1) := by
  have hd0 : (0 : ℚ) < d := by exact_mod_cast Nat.pos_of_ne_zero hd
  obtain ⟨hnlow, hnhigh⟩ := two_zpow_log2_bounds hn
  obtain ⟨hdlow, hdhigh⟩ := two_zpow_log2_bounds hd
  constructor
  · rw [le_div_iff₀ hd0]
    calc (2 : ℚ) ^ ((n.log2 : ℤ) - d.log2 - 1) * d
        ≤ 2 ^ ((n.log2 : ℤ) - d.log2 - 1) * 2 ^ ((d.log2 : ℤ) + 1) := by gcongr
      _ = 2 ^ (n.log2 : ℤ) := by rw [← zpow_add₀ two_ne_zero]; congr 1; ring
      _ ≤ n := hnlow
  · rw [div_lt_iff₀ hd0]
    calc (n : ℚ) < 2 ^ ((n.log2 : ℤ) + 1) := hnhigh
      _ = 2 ^ ((n.log2 : ℤ) - d.log2 + 1) * 2 ^ (d.log2 : ℤ) := by
        rw [← zpow_add₀ two_ne_zero]; congr 1; ring
      _ ≤ 2 ^ ((n.log2 : ℤ) - d.log2 + 1) * d := by gcongr

/-- `floorLog2` is the binary logarithm. -/
theorem floorLog2_bounds {n d : ℕ} (hn : n ≠ 0) (hd : d ≠ 0) :
    (2 : ℚ) ^ floorLog2 n d ≤ n / d ∧ (n / d : ℚ) < 2 ^ (floorLog2 n d + 1) := by
  obtain ⟨hbelow, habove⟩ := div_bounds_of_log2 hn hd
  simp only [floorLog2, mul_two_pow_lt_iff n hd]
  split
  · next h => exact ⟨hbelow, by rwa [sub_add_cancel]⟩
  · next h => exact ⟨not_lt.mp h, habove⟩

/-- A fraction is its whole part and the rest. -/
theorem div_eq_whole_add_rest (n : ℕ) {d : ℕ} (hd : 0 < d) :
    (n / d : ℚ) = (n / d : ℕ) + (n % d : ℕ) / d := by
  have hd0 : (d : ℚ) ≠ 0 := by exact_mod_cast hd.ne'
  rw [div_eq_iff hd0, add_mul, div_mul_cancel₀ _ hd0]
  exact_mod_cast (Nat.div_add_mod' n d).symm

/-- `roundDiv` is the nearest integer, ties to even. -/
theorem roundDiv_spec (n : ℕ) {d : ℕ} (hd : 0 < d) : |(roundDiv n d : ℚ) - n / d| ≤ 1 / 2 ∧
    (|(roundDiv n d : ℚ) - n / d| = 1 / 2 → roundDiv n d % 2 = 0) := by
  have hd0 : (0 : ℚ) < d := by exact_mod_cast hd
  have hr0 : (0 : ℚ) ≤ (n % d : ℕ) / d := by positivity
  have hr1 : ((n % d : ℕ) / d : ℚ) < 1 := (div_lt_one hd0).mpr (by exact_mod_cast Nat.mod_lt n hd)
  have hgt : d < 2 * (n % d) ↔ (1 / 2 : ℚ) < (n % d : ℕ) / d := by
    rw [div_lt_div_iff₀ two_pos hd0, one_mul, mul_comm (_ : ℚ) 2]
    exact_mod_cast Iff.rfl
  have heq : 2 * (n % d) = d ↔ ((n % d : ℕ) / d : ℚ) = 1 / 2 := by
    rw [div_eq_div_iff hd0.ne' two_ne_zero, one_mul, mul_comm (_ : ℚ) 2]
    exact_mod_cast Iff.rfl
  rw [div_eq_whole_add_rest n hd]
  simp only [roundDiv, gt_iff_lt, hgt, heq]
  generalize ((n % d : ℕ) / d : ℚ) = r at *
  split
  · next h =>
    have hhalf : 1 / 2 ≤ r := h.elim le_of_lt fun h => h.1.ge
    rw [show ((n / d + 1 : ℕ) : ℚ) - ((n / d : ℕ) + r) = 1 - r by push_cast; ring,
      abs_of_pos (by linarith)]
    refine ⟨by linarith, fun htie => ?_⟩
    obtain h | ⟨-, hodd⟩ := h
    · linarith
    · omega
  · next h =>
    obtain ⟨hle, htie⟩ := not_or.mp h
    rw [show ((n / d : ℕ) : ℚ) - ((n / d : ℕ) + r) = -r by ring, abs_neg, abs_of_nonneg hr0]
    refine ⟨not_lt.mp hle, fun he => ?_⟩
    have hodd : ¬ (n / d) % 2 = 1 := fun ho => htie ⟨he, ho⟩
    omega

/-- `m` units of exponent `q` are `x` rounded to 53 bits, or to the last place of the subnormals, ties
to even. -/
structure RoundsTo (x : ℚ) (q : ℤ) (m : ℕ) : Prop where
  low : -1074 ≤ q
  normal : q = -1074 ∨ (2 : ℚ) ^ (q + 52) ≤ x
  lt : x < (2 : ℚ) ^ (q + 53)
  near : |m - x / 2 ^ q| ≤ 1 / 2
  even : |m - x / 2 ^ q| = 1 / 2 → m % 2 = 0

/-- The exponent and the significand that `round64` takes. -/
theorem roundsTo_ulpExp {n d : ℕ} (hn : n ≠ 0) (hd : 0 < d) : RoundsTo (n / d) (ulpExp n d)
    (roundDiv (n * 2 ^ (-ulpExp n d).toNat) (d * 2 ^ (ulpExp n d).toNat)) := by
  obtain ⟨hlow, hhigh⟩ := floorLog2_bounds hn hd.ne'
  have hscale : ((n * 2 ^ (-ulpExp n d).toNat : ℕ) : ℚ) / (d * 2 ^ (ulpExp n d).toNat : ℕ) =
      n / d / 2 ^ ulpExp n d := by
    rw [two_zpow_eq_div]
    push_cast
    field_simp
  have hspec := roundDiv_spec (n * 2 ^ (-ulpExp n d).toNat)
    (Nat.mul_pos hd (Nat.two_pow_pos (ulpExp n d).toNat))
  rw [hscale] at hspec
  refine ⟨le_max_right .., ?_, hhigh.trans_le ?_, hspec.1, hspec.2⟩
  · obtain h | h : ulpExp n d = -1074 ∨ ulpExp n d + 52 = floorLog2 n d := by
      unfold ulpExp
      omega
    · exact .inl h
    · exact .inr (h ▸ hlow)
  · refine zpow_le_zpow_right₀ one_le_two ?_
    unfold ulpExp
    omega

section
variable {x : ℚ} {q : ℤ} {m : ℕ}

theorem RoundsTo.exponent_le (h : RoundsTo x q m) (hx : x < 2 ^ (1023 : ℤ)) : q ≤ 970 := by
  obtain he | he := h.normal
  · omega
  · have := (zpow_lt_zpow_iff_right₀ one_lt_two).mp (he.trans_lt hx)
    omega

theorem RoundsTo.scaled_lt (h : RoundsTo x q m) : x / 2 ^ q < 2 ^ 53 := by
  rw [div_lt_iff₀ (zpow_pos two_pos q)]
  refine h.lt.trans_eq ?_
  rw [zpow_add₀ two_ne_zero, mul_comm]
  rfl

theorem RoundsTo.significand_le (h : RoundsTo x q m) : m ≤ 2 ^ 53 := by
  have hnear := (abs_le.mp h.near).2
  have hlt := h.scaled_lt
  have hm : (m : ℚ) < (2 ^ 53 + 1 : ℕ) := by push_cast; linarith
  exact Nat.lt_succ_iff.mp (by exact_mod_cast hm)

theorem RoundsTo.le_significand (h : RoundsTo x q m) : q = -1074 ∨ 2 ^ 52 ≤ m := by
  refine h.normal.imp_right fun hx => ?_
  have hscaled : (2 : ℚ) ^ 52 ≤ x / 2 ^ q := by
    rw [le_div_iff₀ (zpow_pos two_pos q)]
    refine Eq.trans_le ?_ hx
    rw [zpow_add₀ two_ne_zero, mul_comm]
    rfl
  have hnear := (abs_le.mp h.near).1
  have hm : ((2 ^ 52 : ℕ) : ℚ) < (m + 1 : ℕ) := by push_cast; linarith
  exact Nat.lt_succ_iff.mp (by exact_mod_cast hm)

/-- No integer is nearer than one at most a half away, and another as near means a tie. -/
theorem abs_sub_le_of_near {y : ℚ} (h : |m - y| ≤ 1 / 2) (k : ℤ) :
    |m - y| ≤ |k - y| ∧ (|m - y| = |k - y| → (k : ℚ) ≠ m → |m - y| = 1 / 2) := by
  by_cases hk : (k : ℚ) = m
  · rw [hk]
    exact ⟨le_rfl, fun _ hne => absurd rfl hne⟩
  · have hone : 1 ≤ |(k : ℚ) - m| := by
      have hne : k - m ≠ 0 := fun h0 => hk (by exact_mod_cast sub_eq_zero.mp h0)
      exact_mod_cast Int.one_le_abs hne
    have htri : |(k : ℚ) - m| ≤ |k - y| + |m - y| := by
      rw [abs_sub_comm (m : ℚ) y]
      exact abs_sub_le ..
    exact ⟨by linarith, fun he _ => by linarith⟩

/-- No multiple of the last place is nearer, and another as near means an even significand. -/
theorem RoundsTo.nearest_multiple (h : RoundsTo x q m) (k : ℤ) :
    |m * 2 ^ q - x| ≤ |k * 2 ^ q - x| ∧
      (|m * 2 ^ q - x| = |k * 2 ^ q - x| → (k * 2 ^ q : ℚ) ≠ m * 2 ^ q → m % 2 = 0) := by
  have hq : (0 : ℚ) < 2 ^ q := zpow_pos two_pos q
  have hscale : ∀ a : ℚ, |a * 2 ^ q - x| = |a - x / 2 ^ q| * 2 ^ q := fun a => by
    rw [← abs_of_pos hq, ← abs_mul, abs_of_pos hq, sub_mul, div_mul_cancel₀ _ hq.ne']
  obtain ⟨hle, htie⟩ := abs_sub_le_of_near h.near k
  rw [hscale, hscale]
  refine ⟨mul_le_mul_of_nonneg_right hle hq.le, fun he hne => h.even (htie ?_ ?_)⟩
  · exact mul_right_cancel₀ hq.ne' he
  · exact fun hk => hne (by rw [hk])

/-- No finite number of binary64 is nearer, and another as near means an even significand. -/
theorem RoundsTo.nearest (h : RoundsTo x q m) {hi : ℤ} {w : ℚ} (hw : Dyadic 53 (-1074) hi w) :
    |m * 2 ^ q - x| ≤ |w - x| ∧ (|m * 2 ^ q - x| = |w - x| → w ≠ m * 2 ^ q → m % 2 = 0) := by
  obtain ⟨k, j, hk, hj, -, rfl⟩ := hw
  obtain hqj | hjq := le_or_gt q j
  · have hmul : (k * 2 ^ j : ℚ) = (k * 2 ^ (j - q).toNat : ℤ) * 2 ^ q := by
      push_cast
      rw [mul_assoc, ← zpow_natCast, ← zpow_add₀ two_ne_zero]
      congr 2
      omega
    rw [hmul]
    exact h.nearest_multiple _
  · have hx : (2 : ℚ) ^ (q + 52) ≤ x := h.normal.resolve_left (by omega)
    have hw : (k * 2 ^ j : ℚ) < 2 ^ (q + 52) := by
      have hd : Dyadic 53 j j (k * 2 ^ j : ℚ) := ⟨k, j, hk, le_rfl, le_rfl, rfl⟩
      refine (le_abs_self _).trans_lt (hd.abs_lt.trans_le ?_)
      exact zpow_le_zpow_right₀ one_le_two (by push_cast; omega)
    have hpow := (h.nearest_multiple (2 ^ 52)).1
    have hsplit : (((2 ^ 52 : ℤ) : ℚ) * 2 ^ q) = 2 ^ (q + 52) := by
      rw [zpow_add₀ two_ne_zero, mul_comm]
      norm_cast
    rw [hsplit, abs_of_nonpos (sub_nonpos.mpr hx)] at hpow
    rw [abs_of_neg (sub_neg.mpr (hw.trans_le hx) : (k * 2 ^ j : ℚ) - x < 0)]
    exact ⟨by linarith, fun he => by linarith⟩
end

/-! ## `round64` -/

/-- `y` is a fraction `x` with the sign `sg`, rounded to binary64. -/
def IsRounded (y : F64) (sg : Bool) (x : ℚ) : Prop :=
  ∃ n d : ℕ, 0 < d ∧ y = round64 sg n d ∧ x = signFactor sg * (n / d)

theorem round64_sign (sg : Bool) (n d : ℕ) : (round64 sg n d).getLsbD 63 = sg := by
  unfold round64
  split
  · exact sign_pack64 sg (by decide)
  · exact sign_pack64 sg (by omega)

/-- A fraction in range is rounded to the units of `RoundsTo`; the low bit is the significand's. -/
theorem round64_spec (sg : Bool) {n d : ℕ} (hd : 0 < d) (hx : (n / d : ℚ) < 2 ^ (1023 : ℤ)) :
    ∃ q m, RoundsTo (n / d) q m ∧ (round64 sg n d).getLsbD 0 = decide (m % 2 = 1) ∧
      ratOf (val64 (round64 sg n d)) = some (signFactor sg * m * 2 ^ q) := by
  by_cases hn : n = 0
  · subst hn
    refine ⟨-1074, 0, ⟨le_rfl, .inl rfl, by norm_num, by norm_num, fun _ => rfl⟩, ?_, ?_⟩
    · exact lowBit_pack64 sg (by decide)
    · exact ratOf_pack64 (m := 0) sg le_rfl (by decide) (by decide) (.inl rfl)
  · have h := roundsTo_ulpExp hn hd
    have hhigh := h.exponent_le hx
    have hlow := h.low
    have hm := h.significand_le
    refine ⟨_, _, h, ?_⟩
    simp only [round64, if_neg hn]
    generalize roundDiv _ _ = m at *
    generalize ulpExp n d = q at *
    rw [min_eq_left (by omega)]
    refine ⟨?_, ratOf_pack64 sg hlow hhigh hm h.le_significand⟩
    rw [lowBit_pack64 sg (by omega)]
    congr 2
    omega

section
variable {y : F64} {sg : Bool} {x : ℚ}

theorem IsRounded.sign (h : IsRounded y sg x) : y.getLsbD 63 = sg := by
  obtain ⟨n, d, -, rfl, -⟩ := h
  exact round64_sign sg n d

/-- A number in range is rounded to the nearest. -/
theorem IsRounded.nearest (h : IsRounded y sg x) (hx : |x| < 2 ^ (1023 : ℤ)) : IsNearest y x := by
  obtain ⟨n, d, hd, rfl, rfl⟩ := h
  rw [abs_signFactor_mul_div] at hx
  obtain ⟨q, m, hr, hlow, hval⟩ := round64_spec sg hd hx
  refine ⟨_, hval, fun z w hz => ?_⟩
  obtain ⟨hle, htie⟩ := hr.nearest ((dyadic_of_val64 hz).signFactor_mul sg)
  have hturn : ∀ a : ℚ, |a - signFactor sg * (n / d)| = |signFactor sg * a - n / d| := fun a => by
    rw [← abs_signFactor_mul sg (a - _), mul_sub, ← mul_assoc, signFactor_mul_self, one_mul]
  rw [hturn, hturn, mul_assoc, ← mul_assoc, signFactor_mul_self, one_mul]
  refine ⟨hle, fun he hne => ?_⟩
  have heven := htie he fun hw => hne (by rw [← hw, ← mul_assoc, signFactor_mul_self, one_mul])
  rw [hlow, heven]
  rfl

/-- A number of binary64 in range is not changed by rounding. -/
theorem IsRounded.exact (h : IsRounded y sg x) (hx : Dyadic 53 (-1074) 970 x) :
    ratOf (val64 y) = some x := by
  obtain ⟨n, d, hd, rfl, rfl⟩ := h
  have hlt := hx.abs_lt
  rw [abs_signFactor_mul_div, show ((53 : ℕ) : ℤ) + 970 = 1023 from rfl] at hlt
  obtain ⟨q, m, hr, -, hval⟩ := round64_spec sg hd hlt
  have hx' := hx.signFactor_mul sg
  rw [← mul_assoc, signFactor_mul_self, one_mul] at hx'
  have hzero := (hr.nearest hx').1
  rw [sub_self, abs_zero] at hzero
  rw [hval, mul_assoc, sub_eq_zero.mp (abs_nonpos_iff.mp hzero)]
end

end Sys2Proof.Machine
end

section
/-! PROOFS. The numerics record (spec/42_codec_decode.md R146): every operation on finite operands rounds one
exact fraction once, products of the record's size are exact, and NaN passes through. -/

namespace Sys2Proof.Machine

open Sys2Proof.Claims

/-! ## The operations on finite operands -/

/-- A significand under a power of two is a fraction in two parts. -/
theorem scale_eq_div (m n : ℕ) (e : ℤ) :
    (m * 2 ^ e / n : ℚ) = (m * 2 ^ e.toNat : ℕ) / (n * 2 ^ (-e).toNat : ℕ) := by
  rw [two_zpow_eq_div]
  push_cast
  field_simp

theorem widen_isRounded {x : F32} {r : ℚ} (h : ratOf (val32 x) = some r) :
    IsRounded (widen x) (x.getLsbD 31) r := by
  obtain ⟨m, e, hval, rfl, -⟩ := val32_of_ratOf h
  refine ⟨_, _, Nat.two_pow_pos (-e).toNat, by rw [widen, hval], ?_⟩
  have hscale := scale_eq_div m 1 e
  rw [Nat.cast_one, div_one, one_mul] at hscale
  rw [mul_assoc, hscale]

theorem ofNat64_isRounded (n : ℕ) : IsRounded (ofNat64 n) false n :=
  ⟨n, 1, Nat.one_pos, rfl, by simp [signFactor]⟩

section
variable {a b : F64} {x y : ℚ}

theorem mul64_isRounded (ha : ratOf (val64 a) = some x) (hb : ratOf (val64 b) = some y) :
    IsRounded (mul64 a b) (a.getLsbD 63 != b.getLsbD 63) (x * y) := by
  obtain ⟨m, e, hval, rfl, -⟩ := val64_of_ratOf ha
  obtain ⟨n, f, hval', rfl, -⟩ := val64_of_ratOf hb
  refine ⟨_, _, Nat.two_pow_pos (-(e + f)).toNat, by rw [mul64, hval, hval'], ?_⟩
  have hscale := scale_eq_div (m * n) 1 (e + f)
  rw [Nat.cast_one, div_one, one_mul] at hscale
  rw [← hscale, signFactor_bne, zpow_add₀ two_ne_zero]
  push_cast
  ring

theorem div64_isRounded (ha : ratOf (val64 a) = some x) (hb : ratOf (val64 b) = some y) (hy : y ≠ 0) :
    IsRounded (div64 a b) (a.getLsbD 63 != b.getLsbD 63) (x / y) := by
  obtain ⟨m, e, hval, rfl, -⟩ := val64_of_ratOf ha
  obtain ⟨n, f, hval', rfl, -⟩ := val64_of_ratOf hb
  have hn : n ≠ 0 := by
    rintro rfl
    simp at hy
  refine ⟨m * 2 ^ (e - f).toNat, n * 2 ^ (f - e).toNat,
    Nat.mul_pos (Nat.pos_of_ne_zero hn) (Nat.two_pow_pos _), by simp [div64, hval, hval', hn], ?_⟩
  rw [← neg_sub e f, ← scale_eq_div, signFactor_bne, zpow_sub₀ two_ne_zero]
  rw [mul_assoc (signFactor (b.getLsbD 63)), div_signFactor_mul]
  ring
end

/-! ## The record on finite operands -/

theorem val64_widen {x : F32} {r : ℚ} (h : ratOf (val32 x) = some r) : ratOf (val64 (widen x)) = some r :=
  (widen_isRounded h).exact ((dyadic_of_val32 h).mono (by decide) (by decide) (by decide))

theorem val64_ofNat64 {n : ℕ} (h : n < 2 ^ 53) : ratOf (val64 (ofNat64 n)) = some (n : ℚ) :=
  (ofNat64_isRounded n).exact ((dyadic_natCast h).mono le_rfl (by decide) (by decide))

section
variable {x : F32} {r : ℚ} {n : ℕ}

theorem dyadic_mul_natCast (h : ratOf (val32 x) = some r) (hn : n < 2 ^ 8) :
    Dyadic 32 (-149) 104 (r * n) :=
  (dyadic_of_val32 h).mul (dyadic_natCast hn)

/-- A product with a small integer is exact, and keeps the operand's sign. -/
theorem val64_mul64_ofNat64 (h : ratOf (val32 x) = some r) (hn : n < 2 ^ 8) :
    ratOf (val64 (mul64 (widen x) (ofNat64 n))) = some (r * n) ∧
      (mul64 (widen x) (ofNat64 n)).getLsbD 63 = x.getLsbD 31 := by
  have hmul := mul64_isRounded (val64_widen h) (val64_ofNat64 (hn.trans (by decide)))
  refine ⟨hmul.exact ((dyadic_mul_natCast h hn).mono (by decide) (by decide) (by decide)), ?_⟩
  rw [hmul.sign, (widen_isRounded h).sign, (ofNat64_isRounded n).sign, Bool.bne_false]

/-- A small multiple of an operand over a number of at least 1 is rounded to the nearest, and keeps the
operand's sign. -/
theorem div64_mul64_ofNat64 (h : ratOf (val32 x) = some r) (hn : n < 2 ^ 8) {b : F64} {p : ℚ}
    (hb : ratOf (val64 b) = some p) (hp : 1 ≤ p) (hpos : b.getLsbD 63 = false) :
    IsNearest (div64 (mul64 (widen x) (ofNat64 n)) b) (r * n / p) ∧
      (div64 (mul64 (widen x) (ofNat64 n)) b).getLsbD 63 = x.getLsbD 31 := by
  obtain ⟨hmul, hsign⟩ := val64_mul64_ofNat64 h hn
  have hdiv := div64_isRounded hmul hb (zero_lt_one.trans_le hp).ne'
  refine ⟨hdiv.nearest ?_, by rw [hdiv.sign, hsign, hpos, Bool.bne_false]⟩
  calc |r * n / p| = |r * n| / p := by rw [abs_div, abs_of_pos (zero_lt_one.trans_le hp)]
    _ ≤ |r * n| := div_le_self (abs_nonneg _) hp
    _ < 2 ^ (((32 : ℕ) : ℤ) + 104) := (dyadic_mul_natCast h hn).abs_lt
    _ ≤ 2 ^ (1023 : ℤ) := zpow_le_zpow_right₀ one_le_two (by decide)
end

/-- Settles O58: the product of two significands of binary32 fits one of binary64. -/
theorem voltAndPctAreExact : Obligations.VoltAndPctAreExact := by
  refine ⟨fun b p x y hb hp => ⟨?_, ?_⟩, by decide +kernel, by decide +kernel⟩
  · exact (mul64_isRounded (val64_widen hb) (val64_widen hp)).exact
      (((dyadic_of_val32 hb).mul (dyadic_of_val32 hp)).mono (by decide) (by decide) (by decide))
  · exact (val64_mul64_ofNat64 (n := 100) hp (by decide)).1

/-- The number of `PI`'s pattern (R146). -/
theorem val64_pi64 : val64 pi64 = .fin false 0x1921FB54442D18 (-51) := by decide

theorem val64_twoPi64 : val64 twoPi64 = .fin false 0x1921FB54442D18 (-50) := by decide +kernel

/-- `PI` is at least 1, and its double is exact. -/
theorem ratOf_twoPi64 {p : ℚ} (hp : ratOf (val64 pi64) = some p) :
    1 ≤ p ∧ ratOf (val64 twoPi64) = some (2 * p) := by
  rw [val64_pi64] at hp
  rw [val64_twoPi64]
  cases hp
  exact ⟨by norm_num, by norm_num [ratOf]⟩

/-- Settles O60: the product before the quotient is exact, and so is `2 * PI`. -/
theorem degAndRpmAreNearest : Obligations.DegAndRpmAreNearest := by
  intro x r p hx hp
  obtain ⟨hone, htwo⟩ := ratOf_twoPi64 hp
  obtain ⟨hdeg, hdegSign⟩ := div64_mul64_ofNat64 (n := 180) hx (by decide) hp hone rfl
  obtain ⟨hrpm, hrpmSign⟩ := div64_mul64_ofNat64 (n := 60) hx (by decide) htwo (by linarith)
    (by decide +kernel)
  exact ⟨hdeg, hdegSign, hrpm, hrpmSign⟩

/-! ## The record on NaN -/

theorem val64_nan64 (op : ℕ) (a b : F64) : val64 (nan64 op a b) = .nan := by
  have hfr : (Config.nanRaw op a b).toNat % 2 ^ 52 < 2 ^ 52 := Nat.mod_lt _ (by decide)
  simp only [nan64]
  generalize (Config.nanRaw op a b).toNat % 2 ^ 52 = fr at *
  have hpos : 0 < (if fr = 0 then 1 else fr) ∧ (if fr = 0 then 1 else fr) < 2 ^ 52 := by
    split <;> omega
  rw [val64_pack64 _ (by omega), if_pos (by omega), if_neg (by omega)]

theorem val64_widen_nan {x : F32} (h : val32 x = .nan) : val64 (widen x) = .nan := by
  rw [widen, h]
  exact val64_nan64 ..

section
variable {a : F64} (h : val64 a = .nan) (b : F64)
include h

theorem val64_mul64_nan_left : val64 (mul64 a b) = .nan := by
  rw [mul64, h]
  exact val64_nan64 ..

theorem val64_mul64_nan_right : val64 (mul64 b a) = .nan := by
  rw [mul64, h]
  cases val64 b <;> exact val64_nan64 ..

theorem val64_div64_nan_left : val64 (div64 a b) = .nan := by
  rw [div64, h]
  exact val64_nan64 ..
end

/-- Settles O59: a NaN operand passes through the widening, the product and the quotient. -/
theorem nanOperandGivesNanResult : Obligations.NanOperandGivesNanResult := by
  intro x y hx
  have hw := val64_widen_nan hx
  exact ⟨val64_div64_nan_left (val64_mul64_nan_left hw _) _,
    val64_div64_nan_left (val64_mul64_nan_left hw _) _, val64_mul64_nan_left hw _,
    val64_mul64_nan_left hw _, val64_mul64_nan_right hw _⟩

end Sys2Proof.Machine
end

section
/-! PROOFS. The encoders (spec/43_codec_encode.md R171 to R183): each field as it stands on the wire, the
layouts of messages that fit, and the first field of one that does not. -/

namespace Sys2Proof.Machine

open Sys2Proof.Claims

/-! ## An encoder's outcome (R170) -/

section
variable {m : Message}

theorem exec_encodeInstr (m : Message) (s : State) :
    exec (encodeInstr m) s = .next (returnBody m.type.id (encodeBody cfg m) s) := by
  cases m <;> rfl

theorem exec_encodeInstr_of_ok {body : List Byte} (h : encodeBody cfg m = .ok body) (s : State) :
    exec (encodeInstr m) s = .next (encoded s m.type.id body) := by
  rw [exec_encodeInstr, h]
  rfl

theorem exec_encodeInstr_of_error {f : Field} (h : encodeBody cfg m = .error f) (s : State) :
    exec (encodeInstr m) s = .next (answered s (.encodingError f)) := by
  rw [exec_encodeInstr, h]
  rfl

end

/-! ## The fields on the wire (R53, R171) -/

section
variable {n : Nat} {field : Field}

@[simp] theorem putU_byte (b : Byte) : putU 1 b.toNat field = .ok [b] := by
  rw [putU_bitvec 1 b field rfl, le_byte]

@[simp] theorem putU_le16 (x : BitVec 16) : putU 2 x.toNat field = .ok (le16 x) := by
  rw [putU_bitvec 2 x field rfl, le16_eq_le]

@[simp] theorem putU_le32 (x : BitVec 32) : putU 4 x.toNat field = .ok (le32 x) := by
  rw [putU_bitvec 4 x field rfl, le32_eq_le]

@[simp] theorem putF32_le32 (x : F32) : putF32 x = .ok (le32 x) := by
  rw [putF32, le32_eq_le]

theorem putU_of_fits {v : Int} (h : FitsBytes n v) : putU n v field = .ok (le v.toNat n) :=
  putU_ok_iff.mpr ⟨h, rfl⟩

theorem putChar_of_le {text : List Byte} (h : text.length ≤ n) :
    putChar n text field = .ok (padded n text) :=
  putChar_ok.mpr ⟨h, rfl⟩

theorem putChar_error {text : List Byte} (h : n < text.length) : putChar n text field = .error field :=
  if_pos h

theorem putRaw_of_length {raw : List Byte} (h : raw.length = n) : putRaw n raw field = .ok raw :=
  putRaw_ok.mpr ⟨h, rfl⟩

theorem putRaw_error {raw : List Byte} (h : raw.length ≠ n) : putRaw n raw field = .error field :=
  if_pos h

theorem putTelem_of_length {telem : List F32} (h : telem.length = n) :
    putTelem n telem = .ok (telem.flatMap le32) :=
  putTelem_ok.mpr ⟨h, congrArg (List.flatMap · telem) (funext le32_eq_le)⟩

theorem bodyStatusData_of_length {c : Cfg} {d : StatusData}
    (h : d.telem.length = c.statusTelem.length) : bodyStatusData c d = fieldsStatusData c d :=
  if_neg (not_not.mpr h)

end

/-! ## Messages that fit -/

/-- Settles O38: every field is written as it stands on the wire. -/
theorem encIntegerLayouts : Obligations.EncIntegerLayouts := by
  intro x y z p q r f s
  have hmodes : encodeBody cfg (.modes ⟨p.toNat, q.toNat, r.toNat⟩) = .ok [p, q, r] := by
    simp [encodeBody, bodyModes, putAll_ok_cons, Except.map]
  have hdriving : encodeBody cfg (.drivingCommand ⟨x.toNat, y, z⟩) =
      .ok (le32 x ++ le32 y ++ le32 z) := by
    simp [encodeBody, bodyDrivingCommand, putAll_ok_cons, Except.map]
  have hcapture : encodeBody cfg
      (.captureCommand ⟨p.toNat, q.toNat, f.toNat, x.toNat, y.toNat⟩) =
      .ok ([p, q] ++ le16 f ++ le32 x ++ le32 y) := by
    simp [encodeBody, bodyCaptureCommand, putAll_ok_cons, Except.map]
  exact ⟨exec_encodeInstr_of_ok hmodes s,
    exec_encodeInstr_of_ok (m := .robotCommand ⟨p.toNat⟩) (putU_byte p) s,
    exec_encodeInstr_of_ok (m := .request ⟨p.toNat⟩) (putU_byte p) s,
    exec_encodeInstr_of_ok hdriving s, exec_encodeInstr_of_ok hcapture s⟩

/-- Settles O39: every pattern is written as it is. -/
theorem encFloatLayouts : Obligations.EncFloatLayouts := by
  intro a b c d e f g h i s
  have hcapture : encodeBody cfg (.captureData ⟨a, b, c, d, e, f, g, h, i⟩) = .ok (le32 a ++ le32 b ++
      le32 c ++ le32 d ++ le32 e ++ le32 f ++ le32 g ++ le32 h ++ le32 i) := by
    simp [encodeBody, bodyCaptureData, putAll_ok_cons, Except.map]
  have hpid : encodeBody cfg (.pidParams ⟨a, b, c, d, e, f, g⟩) = .ok (le32 a ++ le32 b ++ le32 c ++
      le32 d ++ le32 e ++ le32 f ++ le32 g) := by
    simp [encodeBody, bodyPidParams, putAll_ok_cons, Except.map]
  exact ⟨exec_encodeInstr_of_ok hcapture s, exec_encodeInstr_of_ok hpid s⟩

/-- Settles O40: a text that fits is written padded. -/
theorem encTextLayouts : Obligations.EncTextLayouts := by
  intro a v text name timing s
  refine ⟨fun htext => ?_, fun hname htiming => ?_⟩
  · have hassert : encodeBody cfg (.assertMessage ⟨a.toNat, text, v.toNat⟩) =
        .ok (le32 a ++ padded 200 text ++ le32 v) := by
      simp [encodeBody, bodyAssertMessage, putChar_of_le htext, putAll_ok_cons, Except.map]
    have hdebug : encodeBody cfg (.debugMessage ⟨text, v.toNat⟩) = .ok (padded 200 text ++ le32 v) := by
      simp [encodeBody, bodyDebugMessage, putChar_of_le htext, putAll_ok_cons, Except.map]
    exact ⟨exec_encodeInstr_of_ok hassert s, exec_encodeInstr_of_ok hdebug s⟩
  · have hresult : encodeBody cfg (.taskTimingResult ⟨name, timing⟩) =
        .ok (padded 32 name ++ timing) := by
      simp [encodeBody, bodyTaskTimingResult, putChar_of_le hname, putRaw_of_length htiming,
        putAll_ok_cons, Except.map]
    exact exec_encodeInstr_of_ok hresult s

/-- Settles O41: no encoder looks at `derived`. -/
theorem encStatusAndWaveLayouts : Obligations.EncStatusAndWaveLayouts := by
  intro bat roll pitch yaw mm sm st pad telem derived raw s
  refine ⟨fun htelem => ?_, fun hraw => ?_⟩
  · have hstatus : encodeBody cfg (.statusData
        ⟨bat, roll, pitch, yaw, mm.toNat, sm.toNat, st.toNat, pad.toNat, telem, derived⟩) =
        .ok (le32 bat ++ le32 roll ++ le32 pitch ++ le32 yaw ++ [mm, sm, st, pad] ++
          telem.flatMap le32) := by
      simp [encodeBody, bodyStatusData_of_length, fieldsStatusData, putTelem_of_length, htelem,
        putAll_ok_cons, Except.map]
    exact exec_encodeInstr_of_ok hstatus s
  · exact exec_encodeInstr_of_ok (m := .wave ⟨raw⟩) (putRaw_of_length hraw) s

/-! ## The first field that fails (R171) -/

section
variable {w : Except Field (List Byte)} {ws : List (Except Field (List Byte))} {f : Field}

theorem putAll_error_of_error (h : w = .error f) : putAll (w :: ws) = .error f := by
  rw [h, putAll_error]

theorem putAll_error_of_ok {a : List Byte} (h : w = .ok a) (hws : putAll ws = .error f) :
    putAll (w :: ws) = .error f := by
  rw [h, putAll_ok_cons, hws]
  rfl

end

section
variable {v : Int} {n : Nat} {field f : Field} {ws : List (Except Field (List Byte))}

/-- A value outside its width is the field named. -/
theorem putAll_putU_error (h : ¬ FitsBytes n v) : putAll (putU n v field :: ws) = .error field :=
  putAll_error_of_error (putU_error h)

/-- A value that fits leaves the error to the fields after it. -/
theorem putAll_putU_of_fits (h : FitsBytes n v) (hws : putAll ws = .error f) :
    putAll (putU n v field :: ws) = .error f :=
  putAll_error_of_ok (putU_of_fits h) hws

/-- The four patterns at the front of a StatusData leave the error to the fields after them. -/
theorem putAll_four_f32_error {x y z t : F32} (hws : putAll ws = .error f) :
    putAll (putF32 x :: putF32 y :: putF32 z :: putF32 t :: ws) = .error f :=
  putAll_error_of_ok rfl <| putAll_error_of_ok rfl <| putAll_error_of_ok rfl <|
    putAll_error_of_ok rfl hws

end

/-- Settles O42: the fields before the first that fails are written, and that one ends the body. -/
theorem encRangeErrorNamesFirstField : Obligations.EncRangeErrorNamesFirstField := by
  intro a b c d e f g h k text telem derived s fits errs
  have modes {field} (he : bodyModes ⟨a, b, c⟩ = .error field) : errs (.encModes ⟨a, b, c⟩) field :=
    exec_encodeInstr_of_error (m := .modes _) he s
  have capture {field} (he : bodyCaptureCommand ⟨a, b, c, d, e⟩ = .error field) :
      errs (.encCaptureCommand ⟨a, b, c, d, e⟩) field :=
    exec_encodeInstr_of_error (m := .captureCommand _) he s
  have status {field} (htelem : telem.length = cfg.statusTelem.length)
      (he : putAll [putU 1 a .mainMode, putU 1 b .subMode, putU 1 c .state, putU 1 d .pad,
        putTelem cfg.statusTelem.length telem] = .error field) :
      errs (.encStatusData ⟨f, g, h, k, a, b, c, d, telem, derived⟩) field :=
    exec_encodeInstr_of_error (m := .statusData _)
      ((bodyStatusData_of_length htelem).trans (putAll_four_f32_error he)) s
  refine ⟨fun ha => ?_, fun ha => ⟨?_, ?_⟩,
    fun ha => modes (putAll_putU_error ha),
    fun ha hb => modes (putAll_putU_of_fits ha (putAll_putU_error hb)),
    fun ha hb hc => modes (putAll_putU_of_fits ha (putAll_putU_of_fits hb (putAll_putU_error hc))),
    fun ha => capture (putAll_putU_error ha),
    fun ha hb => capture (putAll_putU_of_fits ha (putAll_putU_error hb)),
    fun ha hb hc => capture (putAll_putU_of_fits ha (putAll_putU_of_fits hb (putAll_putU_error hc))),
    fun ha hb hc hd => capture (putAll_putU_of_fits ha (putAll_putU_of_fits hb
      (putAll_putU_of_fits hc (putAll_putU_error hd)))),
    fun ha hb hc hd he => capture (putAll_putU_of_fits ha (putAll_putU_of_fits hb
      (putAll_putU_of_fits hc (putAll_putU_of_fits hd (putAll_putU_error he))))),
    fun ha => ?_, fun ha htext hb => ?_, fun htext ha => ?_,
    fun htelem => ⟨fun ha => status htelem (putAll_putU_error ha),
      fun ha hb => status htelem (putAll_putU_of_fits ha (putAll_putU_error hb)),
      fun ha hb hc => status htelem (putAll_putU_of_fits ha (putAll_putU_of_fits hb
        (putAll_putU_error hc))),
      fun ha hb hc hd => status htelem (putAll_putU_of_fits ha (putAll_putU_of_fits hb
        (putAll_putU_of_fits hc (putAll_putU_error hd))))⟩⟩
  · exact exec_encodeInstr_of_error (m := .drivingCommand ⟨a, f, g⟩) (putAll_putU_error ha) s
  · exact exec_encodeInstr_of_error (m := .robotCommand ⟨a⟩) (putU_error ha) s
  · exact exec_encodeInstr_of_error (m := .request ⟨a⟩) (putU_error ha) s
  · exact exec_encodeInstr_of_error (m := .assertMessage ⟨a, text, b⟩) (putAll_putU_error ha) s
  · exact exec_encodeInstr_of_error (m := .assertMessage ⟨a, text, b⟩) (putAll_putU_of_fits ha
      (putAll_error_of_ok (putChar_of_le htext) (putAll_putU_error hb))) s
  · exact exec_encodeInstr_of_error (m := .debugMessage ⟨text, a⟩)
      (putAll_error_of_ok (putChar_of_le htext) (putAll_putU_error ha)) s

/-- Settles O43: a field of the wrong length is an error of its own writer. -/
theorem encLengthErrorNeverTruncates : Obligations.EncLengthErrorNeverTruncates := by
  intro a v text raw timing m s
  refine ⟨fun htext => ⟨?_, ?_⟩, fun htext => ?_, fun htext htiming => ?_, fun hraw => ?_,
    fun htelem => ?_⟩
  · exact exec_encodeInstr_of_error (m := .assertMessage _)
      (putAll_error_of_ok (putU_le32 a) (putAll_error_of_error (putChar_error htext))) s
  · exact exec_encodeInstr_of_error (m := .debugMessage _)
      (putAll_error_of_error (putChar_error htext)) s
  · exact exec_encodeInstr_of_error (m := .taskTimingResult _)
      (putAll_error_of_error (putChar_error htext)) s
  · exact exec_encodeInstr_of_error (m := .taskTimingResult _)
      (putAll_error_of_ok (putChar_of_le htext) (putAll_error_of_error (putRaw_error htiming))) s
  · exact exec_encodeInstr_of_error (m := .wave _) (putRaw_error hraw) s
  · exact exec_encodeInstr_of_error (m := .statusData m) (if_pos htelem) s

end Sys2Proof.Machine
end

section
/-! PROOFS. TX.SEND's refusals (spec/43_codec_encode.md R190; spec/60_exceptions.md R227), and the loopback
law (spec/43_codec_encode.md R194). -/

namespace Sys2Proof.Machine

open Sys2Proof.Claims

/-! ## The loopback -/

/-- Settles O28: the codec gets the frame's body in a state with one more message received, and its decoder
gives the message back. -/
theorem loopbackDispatchesTheMessage : Obligations.LoopbackDispatchesTheMessage := by
  intro m inst body s hs hc h0 he hd
  have hlen : body.length ≤ 255 := length_of_encodeBody cfg_valid he ▸ size_le cfg_valid m.type
  obtain ⟨v, hv, hstats, hev, htx⟩ := rxChunk_buildFrame hs hc h0 m.type.id inst hlen
  have hdec : dec cfg m.type.id inst body v = dispatchMsg m.type.id inst (received cfg m) v :=
    dec_of_encodeBody cfg_valid he (ne_request_of_decodable hd) inst v
  rw [hdec, ← wire_eq_buildFrame] at hv
  exact ⟨_, hv, congrArg (· ++ _) hev, rfl, congrArg Stats.msgsRcvd hstats,
    (congrArg Stats.badCrc hstats :), (congrArg Stats.dropped hstats :), rfl, rfl, rfl, htx⟩

/-! ## The checks of StatusData in layout order (R84, R171) -/

/-- A writer does what its check says: it writes, or names the check's field. -/
def Checks (w : Except Field (List Byte)) : Field × Bool → Prop
  | (_, true) => ∃ a, w = .ok a
  | (f, false) => w = .error f

theorem checks_putU (v : Int) (field : Field) :
    Checks (putU 1 v field) (field, decide (0 ≤ v ∧ v < 256)) := by
  by_cases h : 0 ≤ v ∧ v < 256
  · rw [decide_eq_true h]
    exact ⟨_, putU_of_fits h⟩
  · rw [decide_eq_false h]
    exact putU_error h

theorem checks_putTelem (n : Nat) (telem : List F32) :
    Checks (putTelem n telem) (.telem, telem.length == n) := by
  by_cases h : telem.length = n
  · rw [beq_iff_eq.mpr h]
    exact ⟨_, putTelem_of_length h⟩
  · rw [beq_eq_false_iff_ne.mpr h]
    exact putTelem_error h

/-- The first check that fails names the error. -/
theorem putAll_error_of_checks {ws : List (Except Field (List Byte))} {pre post : List (Field × Bool)}
    {f : Field} (h : List.Forall₂ Checks ws (pre ++ (f, false) :: post))
    (hpre : ∀ p ∈ pre, p.2 = true) : putAll ws = .error f := by
  induction pre generalizing ws with
  | nil =>
    cases h with
    | cons hw _ => exact putAll_error_of_error hw
  | cons p pre ih =>
    obtain ⟨hp, hrest⟩ := List.forall_mem_cons.mp hpre
    obtain ⟨field, ok⟩ := p
    cases hp
    cases h with
    | cons hw hws =>
      obtain ⟨a, hw⟩ := hw
      exact putAll_error_of_ok hw (ih hws hrest)

theorem fieldsStatusData_error {c : Cfg} {d : StatusData} {pre post : List (Field × Bool)} {f : Field}
    (h : statusChecks c d = pre ++ (f, false) :: post) (hpre : ∀ p ∈ pre, p.2 = true) :
    fieldsStatusData c d = .error f := by
  refine putAll_four_f32_error (putAll_error_of_checks (pre := pre) (post := post) (h ▸ ?_) hpre)
  exact .cons (checks_putU ..) (.cons (checks_putU ..) (.cons (checks_putU ..) (.cons (checks_putU ..)
    (.cons (checks_putTelem ..) .nil))))

/-! ## TX.SEND -/

theorem sendBody_eq_encodeBody {c : Cfg} {m : Message} (h : m.type ≠ .statusData) :
    sendBody c m = encodeBody c m := by
  cases m with
  | statusData d => exact absurd rfl h
  | _ => rfl

theorem execTxSendUnder_of_sendBody_error {c : Cfg} {m : Message} {s : State} {f : Field}
    (hc : s.connected = true) (h : sendBody c m = .error f) (inst : Int) :
    execTxSendUnder c m inst s = .next (s.finish (.encodingError f)) := by
  simp [execTxSendUnder, hc, h]

theorem execTxSendUnder_of_inst_error {c : Cfg} {m : Message} {s : State} {body : List Byte} {inst : Int}
    (hc : s.connected = true) (he : encodeBody c m = .ok body) (hinst : ¬ (0 ≤ inst ∧ inst < 65536)) :
    execTxSendUnder c m inst s = .next (s.finish (.encodingError .inst)) := by
  have hfits : instFits inst = false := by
    rw [instFits, ← Bool.decide_and, decide_eq_false hinst]
  simp [execTxSendUnder, hc, sendBody_ok.mpr he, hfits]

/-- Settles O48, check by check. -/
theorem txSendChecksInOrder : Obligations.TxSendChecksInOrder := by
  intro m inst s
  simp only [exec_eq_perform]
  refine ⟨fun hc => execTxSend_of_not_connected hc, fun hc hm f he => ?_,
    fun hc d pre post f hm hchecks hpre => ?_, fun hc body he hinst => ?_⟩
  · exact execTxSendUnder_of_sendBody_error hc ((sendBody_eq_encodeBody hm).trans he) inst
  · subst hm
    exact execTxSendUnder_of_sendBody_error (m := .statusData d) hc
      (fieldsStatusData_error hchecks hpre) inst
  · exact execTxSendUnder_of_inst_error hc he hinst

end Sys2Proof.Machine
end

section
/-! PROOFS. The control commands (spec/44_control.md R200, R201, R203): each as an equation with a reset
column of R37 or with its outcome alone, and STAT.READ with no history to look back on. -/

namespace Sys2Proof.Machine

open Sys2Proof.Claims

/-! ## The commands -/

section
variable {s : State}

theorem exec_reset (s : State) : exec .reset s = .next (restarted s s.buf false .done) := rfl

theorem exec_disconnect (s : State) :
    exec .disconnect s = .next (restarted s s.buf false (.closed s.connected)) := rfl

/-- The connection check comes before `open_ok` (R227). -/
theorem exec_connect_of_connected (hc : s.connected = true) (ok : Bool) :
    exec (.connect ok) s = .next (answered s .alreadyConnected) := if_pos hc

theorem exec_connect_false (hc : s.connected = false) :
    exec (.connect false) s = .next (answered s .connectionFailure) :=
  if_neg (Bool.not_eq_true _ ▸ hc)

theorem exec_connect_true (hc : s.connected = false) :
    exec (.connect true) s = .next (restarted s s.buf true .connected) :=
  if_neg (Bool.not_eq_true _ ▸ hc)

/-! ## STAT.READ after a zeroing (R206) -/

theorem State.pick_now (s : State) (lag : Nat) : s.pick [s.now] lag = s.stats := by
  simp [State.pick, State.now]

/-- With no history every window holds the present point alone, so a lag reaches nothing else. -/
theorem statsSeen_of_hist_nil (h : s.hist = []) (reader : Reader) (lag : Lag) :
    s.statsSeen reader lag = s.stats := by
  simp only [State.statsSeen, State.window_head, State.windowMsgs_head, h, List.take_nil,
    List.filter_nil, State.pick_now]

theorem exec_statRead_of_hist_nil (h : s.hist = []) (reader : Reader) (lag : Lag) :
    exec (.statRead reader lag) s = .next ((s.setMark reader.agent).finish (.stats s.stats)) := by
  rw [← statsSeen_of_hist_nil h reader lag]
  rfl

end

/-! ## The obligations -/

/-- Settles O6: RESET and DISCONNECT leave the same reset column, and it holds no history. -/
theorem resetZeroesEverything : Obligations.ResetZeroesEverything := by
  refine ⟨fun st a => rfl, fun s reader lag => ?_⟩
  exact ⟨_, _, exec_reset s, rfl, exec_disconnect s, exec_statRead_of_hist_nil rfl reader lag, rfl⟩

/-- Settles O7: CONNECT's three equations, and the three in R201's order after a RESET. -/
theorem connectGivesFreshParser : Obligations.ConnectGivesFreshParser := by
  refine ⟨fun st a => rfl, fun ok s hc => exec_connect_of_connected hc ok,
    fun s hc => exec_connect_false hc, fun s hc => ⟨_, exec_connect_true hc, rfl⟩, fun s => ?_⟩
  exact ⟨_, _, _, exec_reset s, rfl, exec_connect_true rfl, rfl, exec_connect_of_connected rfl true, rfl⟩

/-- Settles O8: DISCONNECT leaves a reset column from any state; in R203's example the three bytes
take the parser through its first three codes. -/
theorem disconnectAbandonsTheFrame : Obligations.DisconnectAbandonsTheFrame := by
  refine ⟨fun st a => rfl, fun s => ⟨_, _, exec_disconnect s, rfl, exec_disconnect _, rfl⟩,
    fun s hc => ?_⟩
  exact ⟨_, _, _, _, _, _, exec_connect_true hc, rfl, (rxByte_moved rfl).mpr (.wait rfl rfl), rfl,
    (rxByte_moved rfl).mpr (.type rfl), rfl, (rxByte_moved rfl).mpr (.instlo rfl), rfl, rfl,
    exec_disconnect _, rfl, rfl, exec_disconnect _, rfl, rfl, rfl⟩

end Sys2Proof.Machine
end

section
/-! PROOFS. The error outcomes of a command (spec/60_exceptions.md R222, R225, R234): an operation that
ends with one has no effect but the outcome, since every effect that writes something else ends with
another outcome. -/

namespace Sys2Proof.Machine

/-- The error outcomes of a command (R222, R225), with the outcome of an operation that R120 ignores. -/
def isCommandError : OpResult → Bool
  | .notConnected | .alreadyConnected | .connectionFailure | .ignored | .encodingError _ => true
  | _ => false

theorem isCommandError_of {r : OpResult} (h : r = .notConnected ∨ r = .alreadyConnected ∨
    r = .connectionFailure ∨ r = .ignored ∨ ∃ f, r = .encodingError f) : isCommandError r = true := by
  obtain rfl | rfl | rfl | rfl | ⟨f, rfl⟩ := h <;> rfl

theorem not_isCommandError_of_decodeFailure {ty : Byte} {inst : U16} {r : OpResult}
    (h : r = .unknownType ty inst ∨ ∃ k n, r = .decodingError ty inst k n) :
    isCommandError r = false := by
  obtain rfl | ⟨k, n, rfl⟩ := h <;> rfl

/-- VERIFY ends with an outcome of the receive side (R131). -/
theorem verify_result (c : Cfg) (s : State) :
    ∃ r, (verify c s).result = some r ∧ isCommandError r = false := by
  refine verify_induct (P := fun u => ∃ r, u.result = some r ∧ isCommandError r = false) ?bad ?good ?drop
  case bad => exact ⟨_, rfl, rfl⟩
  case good => exact fun ty inst m => ⟨_, rfl, rfl⟩
  case drop => exact fun ty inst r hr => ⟨r, rfl, not_isCommandError_of_decodeFailure hr⟩

/-- An effect that ends with a command's error outcome writes the outcome alone: the first five write
nothing else whatever the outcome, and the others end with other outcomes. -/
theorem Effect.eq_finish_of_isCommandError {c : Cfg} {i : Instr} {s t : State} {r : OpResult}
    (h : Effect c s i t) (hr : t.result = some r) (herr : isCommandError r = true) :
    t = s.finish r := by
  cases h with
  | ignored | encode | notSent | notOpened | crc => cases hr; rfl
  | fail i ty inst body r' hi hc hfail =>
    cases hr
    have hno := not_isCommandError_of_decodeFailure (hfail.imp_right fun ⟨n, e⟩ => ⟨_, n, e⟩)
    cases hno.symm.trans herr
  | crchi b hc hl =>
    obtain ⟨r', hr', hno⟩ := verify_result c (s.atVerify c b)
    cases hr'.symm.trans hr
    cases hno.symm.trans herr
  | _ => cases hr; cases herr

/-- Settles O57: by the case split over the effects; `answered` is the state with its outcome set. -/
theorem commandErrorsChangeNothing : Obligations.CommandErrorsChangeNothing :=
  fun _ _ _ _ h hr herr =>
    (exec_effect h).eq_finish_of_isCommandError hr (isCommandError_of herr)

end Sys2Proof.Machine
end
